-- ==== Sys2Proof/Word.lean ====
section
/-! DEFINITION. The two sizes of data the 6502 knows (00_scope.md R6): bytes and 16-bit words. -/

namespace Sys2Proof

/-- A byte: 8 bits (R6). All registers but PC, and every memory cell. -/
abbrev Byte := BitVec 8

/-- A 16-bit word (R6): PC and every address. Addition on it is modulo 65536 (20_memory.md R44). -/
abbrev Word := BitVec 16

end Sys2Proof
end

