-- ==== Sys2Proof/Machine/Bits.lean ====
section
/-! DEFINITION. Byte order and extension helpers: the only places that say how a word is made of bytes. -/

namespace Sys2Proof

/-- `hi:lo` of R8: the 16-bit concatenation `hi * 256 + lo`. -/
def wordOf (hi lo : Byte) : Word := hi ++ lo

/-- The low-order byte of a word, `w[7:0]`. -/
def loByte (w : Word) : Byte := w.extractLsb' 0 8

/-- The high-order byte of a word, `w[15:8]`. -/
def hiByte (w : Word) : Byte := w.extractLsb' 8 8

/-- `zext_16(b)` of R9. -/
def zext16 (b : Byte) : Word := b.setWidth 16

/-- `sext_16(b)` of R9: `b` if `b < $80`, else `b + $FF00`. -/
def sext16 (b : Byte) : Word := b.signExtend 16

end Sys2Proof
end

