-- ==== Sys2Proof/Config.lean ====
section
/-! DEFINITION. What the platform or the part fixes (00_scope.md R7), and the free values. An `opaque` constant has no body:
no proof can see what it is. -/

namespace Sys2Proof

/-- The two readings of flag N after LSR (41_logic_shift.md R124, D25): as the source prints, or as is generally known. -/
inductive LsrN where
  | unchanged
  | cleared
deriving DecidableEq, Repr, Inhabited

/-- The two readings of flags N and Z after TXS (45_stack_transfer.md R198, D26). -/
inductive TxsFlags where
  | setsNZ
  | none
deriving DecidableEq, Repr, Inhabited

/-- The parameters `VEC_NMI`, `VEC_RES`, `VEC_IRQ` (R7, 20_memory.md R50): the addresses of the words that hold the entry
addresses. Any three addresses are a value of them; a state holds the three it runs with (log 6). -/
structure Vectors where
  /-- `VEC_NMI`: the word with the NMI handler's address. -/
  nmi : Word
  /-- `VEC_RES`: the word with the reset entry address. -/
  res : Word
  /-- `VEC_IRQ`: the word with the IRQ and BRK handler's address. -/
  irq : Word
deriving DecidableEq, Repr

/-- The defaults R7 and D10 give the three parameters. -/
def Config.defaultVectors : Vectors := { nmi := 0xFFFA#16, res := 0xFFFC#16, irq := 0xFFFE#16 }

/-- The open parameter `LSR_N` (R7, R124): left open, log 4. -/
opaque Config.lsrN : LsrN

/-- The open parameter `TXS_FLAGS` (R7, R198): left open, log 5. -/
opaque Config.txsFlags : TxsFlags

/-- What a byte of memory reads as that nothing has listed. DESIGN CHOICE, unsafe (log 1): the spec gives no value (R39). -/
def Config.blankByte : Byte := 0x00#8

/-- `draw_8()` of R9: the k-th free byte. Nothing constrains it (log 3). -/
opaque Config.freeByte : Nat → Byte

/-- `draw_1()` of R9: the k-th free bit. Nothing constrains it (log 3). -/
opaque Config.freeBit : Nat → Bool

end Sys2Proof
end

