-- ==== Sys2Proof/Machine/Memory.lean ====
section
/-! DEFINITION. Memory (10_state.md R36, 20_memory.md R40): a list of cells in one canonical form. Reading and writing one
byte here is the platform's store itself; what the processor's access to an address does is `State.load`, `State.store`. -/

namespace Sys2Proof.Machine

/-- The bytes that differ from what an unlisted address reads as, addresses strictly rising. -/
abbrev Memory := List Host.Cell

/-- What the store holds at key `k`: the first cell listed for it, `Config.blankByte` where none is. -/
def Memory.get (k : Nat) : Memory → Byte
  | [] => Config.blankByte
  | c :: rest => if c.1 = k then c.2 else Memory.get k rest

/-- Drops every cell listed for key `k`. -/
def Memory.erase (k : Nat) : Memory → Memory
  | [] => []
  | c :: rest => if c.1 = k then Memory.erase k rest else c :: Memory.erase k rest

/-- Puts a cell before the first one of a larger key. -/
def Memory.place (c : Host.Cell) : Memory → Memory
  | [] => [c]
  | d :: rest => if c.1 < d.1 then c :: d :: rest else d :: Memory.place c rest

/-- The byte at a 16-bit address. -/
def Memory.read (m : Memory) (a : Word) : Byte := Memory.get a.toNat m

/-- Replaces the byte at a 16-bit address, keeping the canonical form: a byte equal to `Config.blankByte` is not listed. -/
def Memory.write (m : Memory) (a : Word) (v : Byte) : Memory :=
  if v = Config.blankByte then Memory.erase a.toNat m else Memory.place (a.toNat, v) (Memory.erase a.toNat m)

/-- The canonical form: addresses strictly rising from above `floor`, each below 65536, no cell equal to `Config.blankByte`. -/
def Memory.risingFrom (floor : Option Nat) : Memory → Bool
  | [] => true
  | c :: rest =>
    (match floor with | none => true | some f => decide (f < c.1)) && decide (c.1 < 65536)
      && decide (c.2 ≠ Config.blankByte) && Memory.risingFrom (some c.1) rest

/-- Whether a memory has the canonical form. -/
def Memory.wf (m : Memory) : Bool := Memory.risingFrom none m

end Sys2Proof.Machine
end

