-- ==== Sys2Proof/Machine/State.lean ====
section
/-! DEFINITION. The state of the machine (10_state.md R20 to R37), the reasons a step can stop, and the state after reset. -/

namespace Sys2Proof.Machine

/-- The status register SR: exactly six one-bit flags (R27). Bits 5 and 4 (B) of the SR byte are not storage (R35). -/
@[ext]
structure Flags where
  /-- N, bit 7, negative. -/
  n : Bool
  /-- V, bit 6, overflow. -/
  v : Bool
  /-- D, bit 3, decimal mode. -/
  d : Bool
  /-- I, bit 2, IRQ disable. -/
  i : Bool
  /-- Z, bit 1, zero. -/
  z : Bool
  /-- C, bit 0, carry. -/
  c : Bool
deriving DecidableEq, Repr

/-- What an address is to the processor (20_memory.md R51): RAM; ROM, which reads as the platform filled it; or no plain memory
(a device or nothing), of which the spec gives no law. -/
inductive Kind where
  | ram
  | rom
  | external
deriving DecidableEq, Repr

/-- One range of the platform's memory map, both ends included. -/
structure Region where
  first : Word
  last : Word
  kind : Kind
deriving DecidableEq, Repr

/-- What the environment gives one step (00_scope.md R14, 60_exceptions.md R210): the three input lines at the boundary before
it, and the bytes other agents have stored since the step before it (D22). -/
structure Inputs where
  /-- `res_line` is asserted. -/
  res : Bool
  /-- an edge of `nmi_edge` has been signalled. -/
  nmiEdge : Bool
  /-- `irq_line` is asserted. -/
  irq : Bool
  /-- bytes stored into memory by another agent, in order. -/
  stores : List (Word × Byte)
deriving DecidableEq, Repr

/-- No input asserted and nothing stored. -/
def Inputs.idle : Inputs := ⟨false, false, false, []⟩

/-- The state of the machine. -/
@[ext]
structure State where
  /-- A, the accumulator (R21). -/
  a : Byte
  /-- X, index register (R22). -/
  x : Byte
  /-- Y, index register (R23). -/
  y : Byte
  /-- SP, which names the next free byte of page 1 (R24). -/
  sp : Byte
  /-- PC: the address of the next instruction's opcode byte (R25). -/
  pc : Word
  /-- SR (R26). -/
  flags : Flags
  /-- The bytes of memory (R36). -/
  mem : Memory
  /-- `nmi_pending`, the NMI latch (R37). -/
  nmiPending : Bool
  /-- The parameter `Mem` (20_memory.md R51): what is not RAM. The first range that covers an address counts (log 7). -/
  platform : List Region
  /-- The parameters `VEC_NMI`, `VEC_RES`, `VEC_IRQ` (20_memory.md R50). No step changes them (log 6). -/
  vectors : Vectors
  /-- The inputs of the coming steps, the next first; none asserted after the last (log 8). -/
  inputs : List Inputs
  /-- The model's own: how many free values have been taken (log 3). -/
  draws : Nat
deriving DecidableEq, Repr

/-- Why the machine stops. -/
inductive Fault where
  /-- The fetched byte is one of the 105 illegal opcodes (30_encoding.md R82). Raised by `step`, before anything is changed.
  Safe: a verdict of the model; nothing is claimed of what the silicon does. -/
  | illegalOpcode (opc : Byte)
deriving DecidableEq, Repr

/-- Why the model gives no next state. -/
inductive Refusal where
  /-- An instruction that has no meaning yet. Raised by an arm of `exec`; safe. No arm raises it. -/
  | notModelled (mnemonic : String)
deriving DecidableEq, Repr

/-- Write of A. -/
def State.withA (s : State) (v : Byte) : State := { s with a := v }
/-- Write of X. -/
def State.withX (s : State) (v : Byte) : State := { s with x := v }
/-- Write of Y. -/
def State.withY (s : State) (v : Byte) : State := { s with y := v }
/-- Write of SP. -/
def State.withSp (s : State) (v : Byte) : State := { s with sp := v }
/-- Write of PC. -/
def State.withPc (s : State) (v : Word) : State := { s with pc := v }
/-- Write of the six flags. -/
def State.withFlags (s : State) (v : Flags) : State := { s with flags := v }
/-- Change of the memory's contents. -/
def State.withMem (s : State) (v : Memory) : State := { s with mem := v }
/-- Write of the NMI latch. -/
def State.withNmiPending (s : State) (v : Bool) : State := { s with nmiPending := v }
/-- Change of the platform's map. -/
def State.withPlatform (s : State) (v : List Region) : State := { s with platform := v }
/-- Change of the vectors' addresses. -/
def State.withVectors (s : State) (v : Vectors) : State := { s with vectors := v }
/-- Change of the inputs to come. -/
def State.withInputs (s : State) (v : List Inputs) : State := { s with inputs := v }
/-- Change of the count of free values taken. -/
def State.withDraws (s : State) (v : Nat) : State := { s with draws := v }

/-- The machine right after reset with given vector addresses (10_state.md R39, 70_reset_and_hazards.md R240): I = 1, no NMI
pending, PC the word at `VEC_RES`, memory with nothing listed. A, X, Y, SP and the other five flags are unspecified there: zero
here, DESIGN CHOICE, unsafe (log 2). No platform range, no input and no draw: log 7, log 8, log 3. -/
def State.resetWith (v : Vectors) : State where
  a := 0x00
  x := 0x00
  y := 0x00
  sp := 0x00
  pc := wordOf (Memory.read [] (v.res + 1)) (Memory.read [] v.res)
  flags := { n := false, v := false, d := false, i := true, z := false, c := false }
  mem := []
  nmiPending := false
  platform := []
  vectors := v
  inputs := []
  draws := 0

/-- The machine right after reset, with the default vector addresses (00_scope.md R7). -/
def State.reset : State := State.resetWith Config.defaultVectors

end Sys2Proof.Machine
end

