-- ==== Sys2Proof/Machine/Flags.lean ====
section
/-! DEFINITION. Every flag computation of the spec: on bytes and the six flags alone. Sums are computed exactly, as naturals
or integers, and narrowed at the end. -/

namespace Sys2Proof.Machine

/-- `setNZ(r)` (10_state.md R28): N is bit 7 of the result, Z whether it is zero. -/
def Flags.setNZ (f : Flags) (r : Byte) : Flags := { f with n := r.msb, z := decide (r = 0) }

/-- `SRbyte(b)` (R32): the status register as the byte that is pushed, bit 5 = 1 and bit 4 = b. -/
def Flags.toByte (f : Flags) (b : Bool) : Byte :=
  BitVec.ofNat 8 (128 * f.n.toNat + 64 * f.v.toNat + 32 + 16 * b.toNat
    + 8 * f.d.toNat + 4 * f.i.toNat + 2 * f.z.toNat + f.c.toNat)

/-- `SetSR(v)` (R33): the six flags from bits 7, 6, 3, 2, 1, 0 of a pulled byte; bits 5 and 4 are discarded. -/
def Flags.ofByte (p : Byte) : Flags where
  n := p.getLsbD 7
  v := p.getLsbD 6
  d := p.getLsbD 3
  i := p.getLsbD 2
  z := p.getLsbD 1
  c := p.getLsbD 0

/-- Binary ADC (40_arithmetic.md R100): the sum `A + M + C` with its flags. -/
def Flags.addBinary (f : Flags) (a m : Byte) : Byte × Flags :=
  let s := a.toNat + m.toNat + f.c.toNat
  let r := BitVec.ofNat 8 s
  (r, { f.setNZ r with v := a.msb == m.msb && r.msb != a.msb, c := decide (s > 255) })

/-- Binary SBC (R110): the borrow is the complement of C, so `A + (255 - M) + C`. -/
def Flags.subBinary (f : Flags) (a m : Byte) : Byte × Flags :=
  let s := a.toNat + (255 - m.toNat) + f.c.toNat
  let r := BitVec.ofNat 8 s
  (r, { f.setNZ r with v := a.msb != m.msb && r.msb != a.msb, c := decide (s > 255) })

/-- The compares (R101 to R103): flags of `R - M`, C = 1 exactly when R >= M unsigned. -/
def Flags.compare (f : Flags) (r m : Byte) : Flags :=
  { f.setNZ (r - m) with c := decide (m.toNat ≤ r.toNat) }

/-- Valid BCD (R111): both nibbles at most 9. -/
def validBcd (v : Byte) : Bool := decide (v.toNat / 16 ≤ 9) && decide (v.toNat % 16 ≤ 9)

/-- `dec(v)` of R111: ten times the high nibble plus the low one. -/
def bcdToNat (v : Byte) : Nat := 10 * (v.toNat / 16) + v.toNat % 16

/-- `bcd(n)` of R111, for n at most 99. -/
def natToBcd (n : Nat) : Byte := BitVec.ofNat 8 (16 * (n / 10) + n % 10)

/-- Decimal ADC (R111): A and C of valid BCD operands; none, where nothing is defined. -/
def addDecimal (c : Bool) (a m : Byte) : Option (Byte × Bool) :=
  if validBcd a && validBcd m then
    let s := bcdToNat a + bcdToNat m + c.toNat
    some (natToBcd (s % 100), decide (s > 99))
  else none

/-- Decimal SBC (R112): A and C of valid BCD operands; none, where nothing is defined. -/
def subDecimal (c : Bool) (a m : Byte) : Option (Byte × Bool) :=
  if validBcd a && validBcd m then
    let d : Int := (bcdToNat a : Int) - bcdToNat m - (1 - c.toNat)
    if d < 0 then some (natToBcd (d + 100).toNat, false) else some (natToBcd d.toNat, true)
  else none

/-- INC (R107): `(M + 1) mod 256`; N and Z, not C. -/
def Flags.inc (f : Flags) (m : Byte) : Byte × Flags := (m + 1, f.setNZ (m + 1))

/-- DEC (R104): `(M - 1) mod 256`; N and Z, not C. -/
def Flags.dec (f : Flags) (m : Byte) : Byte × Flags := (m - 1, f.setNZ (m - 1))

/-- ASL (41_logic_shift.md R121): bit 7 to C, 0 into bit 0. -/
def Flags.asl (f : Flags) (m : Byte) : Byte × Flags :=
  let r := BitVec.ofNat 8 (m.toNat * 2)
  (r, { f.setNZ r with c := m.getLsbD 7 })

/-- What LSR leaves in N: the open parameter `LSR_N` (R124; log 4). -/
def lsrNegative (old : Bool) : Bool :=
  match Config.lsrN with
  | .unchanged => old
  | .cleared => false

/-- LSR (R124): bit 0 to C, 0 into bit 7; Z from the result, N by the parameter `LSR_N`. -/
def Flags.lsr (f : Flags) (m : Byte) : Byte × Flags :=
  let r := BitVec.ofNat 8 (m.toNat / 2)
  (r, { f with n := lsrNegative f.n, z := decide (r = 0), c := m.getLsbD 0 })

/-- ROL (R126): the old C enters bit 0, bit 7 leaves into C. -/
def Flags.rol (f : Flags) (m : Byte) : Byte × Flags :=
  let r := BitVec.ofNat 8 (m.toNat * 2 % 256 + f.c.toNat)
  (r, { f.setNZ r with c := m.getLsbD 7 })

/-- ROR (R127): the old C enters bit 7, bit 0 leaves into C. -/
def Flags.ror (f : Flags) (m : Byte) : Byte × Flags :=
  let r := BitVec.ofNat 8 (m.toNat / 2 + 128 * f.c.toNat)
  (r, { f.setNZ r with c := m.getLsbD 0 })

/-- BIT (R122): N and V from bits 7 and 6 of the memory byte itself, Z from `A & M`. -/
def Flags.bitTest (f : Flags) (a m : Byte) : Flags :=
  { f with n := m.getLsbD 7, v := m.getLsbD 6, z := decide (a &&& m = 0) }

/-- N and Z after TXS: the open parameter `TXS_FLAGS` (45_stack_transfer.md R198; log 5). -/
def Flags.afterTxs (f : Flags) (x : Byte) : Flags :=
  match Config.txsFlags with
  | .setsNZ => f.setNZ x
  | .none => f

end Sys2Proof.Machine
end

