-- ==== Sys2Proof/Machine/Ops.lean ====
section
/-! DEFINITION. The named operations: free values, one-byte accesses, words and pointers, the stack, taking an exception and
returning from one, reset, and what the environment does at an instruction boundary. An access gives its value and the state
after it. -/

namespace Sys2Proof.Machine

/-- `draw_8()` (00_scope.md R9): a free byte; the counter moves on, so that the next one is another (log 3). -/
def State.draw8 (s : State) : Byte × State := (Config.freeByte s.draws, s.withDraws (s.draws + 1))

/-- `draw_1()` (R9): a free bit. -/
def State.draw1 (s : State) : Bool × State := (Config.freeBit s.draws, s.withDraws (s.draws + 1))

/-- Whether a range of the platform's map covers an address. -/
def Region.covers (r : Region) (a : Word) : Bool := decide (r.first ≤ a) && decide (a ≤ r.last)

/-- What an address is (20_memory.md R51): as the first range that covers it says, RAM where none does (log 7). -/
def State.kindAt (s : State) (a : Word) : Kind :=
  match s.platform.find? (fun r => r.covers a) with
  | some r => r.kind
  | none => .ram

/-- `MemRead(addr, 1)` (R47): the byte memory holds; at an address that is no plain memory a fresh free byte (R51, U6).
It never faults. -/
def State.load (s : State) (a : Word) : Byte × State :=
  match s.kindAt a with
  | .ram | .rom => (s.mem.read a, s)
  | .external => s.draw8

/-- `MemWrite(addr, 1, v)` (R47): replaces the byte in RAM; elsewhere a write has no promised effect (R51, D34) and changes
nothing here (log 7). It never faults. -/
def State.store (s : State) (a : Word) (v : Byte) : State :=
  match s.kindAt a with
  | .ram => s.withMem (s.mem.write a v)
  | .rom | .external => s

/-- `MemRead(addr, 2)` (R48): the low byte first, then the high byte at `(addr + 1) mod 65536`. -/
def State.loadWord (s : State) (a : Word) : Word × State :=
  let lo := s.load a
  let hi := lo.2.load (a + 1)
  (wordOf hi.1 lo.1, hi.2)

/-- A pointer whose two bytes lie in one page, low byte first: `MemReadZP16` (R49) in page 0, and the pointer of JMP (ind)
(30_encoding.md R71) in its own page. -/
def State.loadInPage (s : State) (p : Word) : Word × State :=
  let lo := s.load p
  let hi := lo.2.load (wordOf (hiByte p) (loByte p + 1))
  (wordOf hi.1 lo.1, hi.2)

/-- `$0100 + SP`: the address in the stack page that a stack pointer names (10_state.md R24). -/
def stackAddr (sp : Byte) : Word := wordOf 0x01 sp

/-- `push8(v)` (20_memory.md R52): store, then decrement SP. -/
def State.push8 (s : State) (v : Byte) : State :=
  (s.store (stackAddr s.sp) v).withSp (s.sp - 1)

/-- `pull8()` (R53): increment SP, then read. -/
def State.pull8 (s : State) : Byte × State :=
  (s.withSp (s.sp + 1)).load (stackAddr (s.sp + 1))

/-- `push16(w)` (R59): the high byte first. -/
def State.push16 (s : State) (w : Word) : State := (s.push8 (hiByte w)).push8 (loByte w)

/-- `pull16()` (R59): the low byte first. -/
def State.pull16 (s : State) : Word × State :=
  let lo := s.pull8
  let hi := lo.2.pull8
  (wordOf hi.1 lo.1, hi.2)

/-- TAKING AN EXCEPTION: the one entry sequence of BRK, IRQ and NMI (60_exceptions.md R213, R214, 43_system_flags.md R160). It
pushes the return address, high byte first, then SR with bit 4 = `b` and I as it was; then I is set and PC loaded from the
vector, in memory as the pushes left it. A, X, Y, D and the other flags stay. -/
def State.enter (s : State) (ret : Word) (b : Bool) (vector : Word) : State :=
  let pushed := (s.push16 ret).push8 (s.flags.toByte b)
  let target := (pushed.withFlags { pushed.flags with i := true }).loadWord vector
  target.2.withPc target.1

/-- `Interrupt(vector)` (R213): the entry of IRQ and NMI, with PC the instruction not yet executed and bit 4 = 0. -/
def State.interrupt (s : State) (vector : Word) : State := s.enter s.pc false vector

/-- RETURN FROM AN EXCEPTION (43_system_flags.md R166, 60_exceptions.md R220): pull SR, then PC, with no adjustment. -/
def State.returnFromInterrupt (s : State) : State :=
  let p := s.pull8
  let w := (p.2.withFlags (Flags.ofByte p.1)).pull16
  w.2.withPc w.1

/-- `Reset()` (70_reset_and_hazards.md R240): I, the NMI latch and PC are set; A, X, Y, SP and the other flags are free;
nothing is pushed and no memory is written. -/
def State.takeReset (s : State) : State :=
  let w := ((s.withFlags { s.flags with i := true }).withNmiPending false).loadWord s.vectors.res
  let a := (w.2.withPc w.1).draw8
  let x := a.2.draw8
  let y := x.2.draw8
  let sp := y.2.draw8
  let n := sp.2.draw1
  let v := n.2.draw1
  let d := v.2.draw1
  let z := d.2.draw1
  let c := z.2.draw1
  ((((c.2.withA a.1).withX x.1).withY y.1).withSp sp.1).withFlags
    { n := n.1, v := v.1, d := d.1, i := true, z := z.1, c := c.1 }

/-- Stores made into memory by other agents, in order (D22). They are the platform's, whatever its map says. -/
def Memory.writeAll (m : Memory) : List (Word × Byte) → Memory
  | [] => m
  | p :: rest => Memory.writeAll (m.write p.1 p.2) rest

/-- What the environment gives the coming step: its inputs, and the state with other agents' stores made and an NMI edge
latched (60_exceptions.md R216). After the last record no input is asserted (log 8). -/
def State.sample (s : State) : Inputs × State :=
  match s.inputs with
  | [] => (Inputs.idle, s)
  | now :: rest =>
    (now, ((s.withInputs rest).withMem (s.mem.writeAll now.stores)).withNmiPending (s.nmiPending || now.nmiEdge))

/-- What happens at an instruction boundary. -/
inductive Event where
  | reset
  | nmi
  | irq
  | instruction
deriving DecidableEq, Repr

/-- The one event taken at a boundary, in the order RESET, NMI, IRQ, the next instruction (R218; R215, R216). -/
def State.event (s : State) (now : Inputs) : Event :=
  if now.res then .reset
  else if s.nmiPending then .nmi
  else if now.irq && !s.flags.i then .irq
  else .instruction

/-- The NMI step (R216): the latch is cleared and the entry sequence run. -/
def State.takeNmi (s : State) : State := (s.withNmiPending false).interrupt s.vectors.nmi

/-- The IRQ step (R215). -/
def State.takeIrq (s : State) : State := s.interrupt s.vectors.irq

/-- An instruction of `len` bytes (10_state.md R25, 30_encoding.md R63): PC moves past it, then its rule is performed. -/
def complete (len : Word) (rule : State → State) (s : State) : Host.Outcome State Fault Refusal :=
  .next (rule (s.withPc (s.pc + len)))

end Sys2Proof.Machine
end

