-- ==== Sys2Proof/Syntax.lean ====
section
/-! DEFINITION. The instruction set as terms: one constructor for each of the 151 rows of spec/opcode_table.json
(30_encoding.md R80, R81), with the operand bytes the row's encoding carries (R60, R62). A three-byte instruction carries its
operand `b2:b1` as one word. Beside it the 56 mnemonics and the 13 address modes (R64). -/

namespace Sys2Proof

/-- The 56 mnemonics. -/
inductive Mnemonic where
  | adc | and | asl | bcc | bcs | beq | bit | bmi
  | bne | bpl | brk | bvc | bvs | clc | cld | cli
  | clv | cmp | cpx | cpy | dec | dex | dey | eor
  | inc | inx | iny | jmp | jsr | lda | ldx | ldy
  | lsr | nop | ora | pha | php | pla | plp | rol
  | ror | rti | rts | sbc | sec | sed | sei | sta
  | stx | sty | tax | tay | tsx | txa | txs | tya
deriving DecidableEq, Repr

/-- The 13 address modes, by the matrix's abbreviations (R64). -/
inductive Mode where
  | acc | abs | absX | absY | imm | impl | ind | xInd | indY | rel | zpg | zpgX | zpgY
deriving DecidableEq, Repr

/-- The eight modes that name a byte of memory (R67 to R69, R72, R73, R75 to R77), each with its operand bytes. -/
inductive Addr where
  | zpg (ll : Byte) | zpgX (ll : Byte) | zpgY (ll : Byte)
  | abs (hhll : Word) | absX (hhll : Word) | absY (hhll : Word)
  | xInd (bb : Byte) | indY (ll : Byte)
deriving DecidableEq, Repr

/-- An operand as written: nothing, A, an immediate byte, a byte of memory, the pointer of JMP (ind), a branch offset. -/
inductive Operand where
  | impl | acc | imm (bb : Byte) | mem (m : Addr) | ind (hhll : Word) | rel (bb : Byte)
deriving DecidableEq, Repr

/-- The instructions: one constructor per row of the opcode table. -/
inductive Instr where
  | adcXInd (bb : Byte) | adcZpg (ll : Byte) | adcImm (imm : Byte) | adcAbs (hhll : Word) | adcIndY (ll : Byte)
  | adcZpgX (ll : Byte) | adcAbsY (hhll : Word) | adcAbsX (hhll : Word)
  | andXInd (bb : Byte) | andZpg (ll : Byte) | andImm (imm : Byte) | andAbs (hhll : Word) | andIndY (ll : Byte)
  | andZpgX (ll : Byte) | andAbsY (hhll : Word) | andAbsX (hhll : Word)
  | aslZpg (ll : Byte) | aslAcc | aslAbs (hhll : Word) | aslZpgX (ll : Byte) | aslAbsX (hhll : Word)
  | bcc (bb : Byte)
  | bcs (bb : Byte)
  | beq (bb : Byte)
  | bitZpg (ll : Byte) | bitAbs (hhll : Word)
  | bmi (bb : Byte)
  | bne (bb : Byte)
  | bpl (bb : Byte)
  | brk
  | bvc (bb : Byte)
  | bvs (bb : Byte)
  | clc
  | cld
  | cli
  | clv
  | cmpXInd (bb : Byte) | cmpZpg (ll : Byte) | cmpImm (imm : Byte) | cmpAbs (hhll : Word) | cmpIndY (ll : Byte)
  | cmpZpgX (ll : Byte) | cmpAbsY (hhll : Word) | cmpAbsX (hhll : Word)
  | cpxImm (imm : Byte) | cpxZpg (ll : Byte) | cpxAbs (hhll : Word)
  | cpyImm (imm : Byte) | cpyZpg (ll : Byte) | cpyAbs (hhll : Word)
  | decZpg (ll : Byte) | decAbs (hhll : Word) | decZpgX (ll : Byte) | decAbsX (hhll : Word)
  | dex
  | dey
  | eorXInd (bb : Byte) | eorZpg (ll : Byte) | eorImm (imm : Byte) | eorAbs (hhll : Word) | eorIndY (ll : Byte)
  | eorZpgX (ll : Byte) | eorAbsY (hhll : Word) | eorAbsX (hhll : Word)
  | incZpg (ll : Byte) | incAbs (hhll : Word) | incZpgX (ll : Byte) | incAbsX (hhll : Word)
  | inx
  | iny
  | jmpAbs (hhll : Word) | jmpInd (hhll : Word)
  | jsr (hhll : Word)
  | ldaXInd (bb : Byte) | ldaZpg (ll : Byte) | ldaImm (imm : Byte) | ldaAbs (hhll : Word) | ldaIndY (ll : Byte)
  | ldaZpgX (ll : Byte) | ldaAbsY (hhll : Word) | ldaAbsX (hhll : Word)
  | ldxImm (imm : Byte) | ldxZpg (ll : Byte) | ldxAbs (hhll : Word) | ldxZpgY (ll : Byte) | ldxAbsY (hhll : Word)
  | ldyImm (imm : Byte) | ldyZpg (ll : Byte) | ldyAbs (hhll : Word) | ldyZpgX (ll : Byte) | ldyAbsX (hhll : Word)
  | lsrZpg (ll : Byte) | lsrAcc | lsrAbs (hhll : Word) | lsrZpgX (ll : Byte) | lsrAbsX (hhll : Word)
  | nop
  | oraXInd (bb : Byte) | oraZpg (ll : Byte) | oraImm (imm : Byte) | oraAbs (hhll : Word) | oraIndY (ll : Byte)
  | oraZpgX (ll : Byte) | oraAbsY (hhll : Word) | oraAbsX (hhll : Word)
  | pha
  | php
  | pla
  | plp
  | rolZpg (ll : Byte) | rolAcc | rolAbs (hhll : Word) | rolZpgX (ll : Byte) | rolAbsX (hhll : Word)
  | rorZpg (ll : Byte) | rorAcc | rorAbs (hhll : Word) | rorZpgX (ll : Byte) | rorAbsX (hhll : Word)
  | rti
  | rts
  | sbcXInd (bb : Byte) | sbcZpg (ll : Byte) | sbcImm (imm : Byte) | sbcAbs (hhll : Word) | sbcIndY (ll : Byte)
  | sbcZpgX (ll : Byte) | sbcAbsY (hhll : Word) | sbcAbsX (hhll : Word)
  | sec
  | sed
  | sei
  | staXInd (bb : Byte) | staZpg (ll : Byte) | staAbs (hhll : Word) | staIndY (ll : Byte) | staZpgX (ll : Byte)
  | staAbsY (hhll : Word) | staAbsX (hhll : Word)
  | stxZpg (ll : Byte) | stxAbs (hhll : Word) | stxZpgY (ll : Byte)
  | styZpg (ll : Byte) | styAbs (hhll : Word) | styZpgX (ll : Byte)
  | tax
  | tay
  | tsx
  | txa
  | txs
  | tya
deriving DecidableEq, Repr

/-- The mnemonic of an instruction. -/
def Instr.mnemonic : Instr → Mnemonic
  | .adcXInd _ | .adcZpg _ | .adcImm _ | .adcAbs _ | .adcIndY _ | .adcZpgX _ | .adcAbsY _ | .adcAbsX _ => .adc
  | .andXInd _ | .andZpg _ | .andImm _ | .andAbs _ | .andIndY _ | .andZpgX _ | .andAbsY _ | .andAbsX _ => .and
  | .aslZpg _ | .aslAcc | .aslAbs _ | .aslZpgX _ | .aslAbsX _ => .asl
  | .bcc _ => .bcc
  | .bcs _ => .bcs
  | .beq _ => .beq
  | .bitZpg _ | .bitAbs _ => .bit
  | .bmi _ => .bmi
  | .bne _ => .bne
  | .bpl _ => .bpl
  | .brk => .brk
  | .bvc _ => .bvc
  | .bvs _ => .bvs
  | .clc => .clc
  | .cld => .cld
  | .cli => .cli
  | .clv => .clv
  | .cmpXInd _ | .cmpZpg _ | .cmpImm _ | .cmpAbs _ | .cmpIndY _ | .cmpZpgX _ | .cmpAbsY _ | .cmpAbsX _ => .cmp
  | .cpxImm _ | .cpxZpg _ | .cpxAbs _ => .cpx
  | .cpyImm _ | .cpyZpg _ | .cpyAbs _ => .cpy
  | .decZpg _ | .decAbs _ | .decZpgX _ | .decAbsX _ => .dec
  | .dex => .dex
  | .dey => .dey
  | .eorXInd _ | .eorZpg _ | .eorImm _ | .eorAbs _ | .eorIndY _ | .eorZpgX _ | .eorAbsY _ | .eorAbsX _ => .eor
  | .incZpg _ | .incAbs _ | .incZpgX _ | .incAbsX _ => .inc
  | .inx => .inx
  | .iny => .iny
  | .jmpAbs _ | .jmpInd _ => .jmp
  | .jsr _ => .jsr
  | .ldaXInd _ | .ldaZpg _ | .ldaImm _ | .ldaAbs _ | .ldaIndY _ | .ldaZpgX _ | .ldaAbsY _ | .ldaAbsX _ => .lda
  | .ldxImm _ | .ldxZpg _ | .ldxAbs _ | .ldxZpgY _ | .ldxAbsY _ => .ldx
  | .ldyImm _ | .ldyZpg _ | .ldyAbs _ | .ldyZpgX _ | .ldyAbsX _ => .ldy
  | .lsrZpg _ | .lsrAcc | .lsrAbs _ | .lsrZpgX _ | .lsrAbsX _ => .lsr
  | .nop => .nop
  | .oraXInd _ | .oraZpg _ | .oraImm _ | .oraAbs _ | .oraIndY _ | .oraZpgX _ | .oraAbsY _ | .oraAbsX _ => .ora
  | .pha => .pha
  | .php => .php
  | .pla => .pla
  | .plp => .plp
  | .rolZpg _ | .rolAcc | .rolAbs _ | .rolZpgX _ | .rolAbsX _ => .rol
  | .rorZpg _ | .rorAcc | .rorAbs _ | .rorZpgX _ | .rorAbsX _ => .ror
  | .rti => .rti
  | .rts => .rts
  | .sbcXInd _ | .sbcZpg _ | .sbcImm _ | .sbcAbs _ | .sbcIndY _ | .sbcZpgX _ | .sbcAbsY _ | .sbcAbsX _ => .sbc
  | .sec => .sec
  | .sed => .sed
  | .sei => .sei
  | .staXInd _ | .staZpg _ | .staAbs _ | .staIndY _ | .staZpgX _ | .staAbsY _ | .staAbsX _ => .sta
  | .stxZpg _ | .stxAbs _ | .stxZpgY _ => .stx
  | .styZpg _ | .styAbs _ | .styZpgX _ => .sty
  | .tax => .tax
  | .tay => .tay
  | .tsx => .tsx
  | .txa => .txa
  | .txs => .txs
  | .tya => .tya

/-- The operand of an instruction in its address mode (R64). For JMP and JSR the absolute operand is the target (R67). -/
def Instr.operand : Instr → Operand
  | .adcXInd bb => .mem (.xInd bb)
  | .adcZpg ll => .mem (.zpg ll)
  | .adcImm imm => .imm imm
  | .adcAbs hhll => .mem (.abs hhll)
  | .adcIndY ll => .mem (.indY ll)
  | .adcZpgX ll => .mem (.zpgX ll)
  | .adcAbsY hhll => .mem (.absY hhll)
  | .adcAbsX hhll => .mem (.absX hhll)
  | .andXInd bb => .mem (.xInd bb)
  | .andZpg ll => .mem (.zpg ll)
  | .andImm imm => .imm imm
  | .andAbs hhll => .mem (.abs hhll)
  | .andIndY ll => .mem (.indY ll)
  | .andZpgX ll => .mem (.zpgX ll)
  | .andAbsY hhll => .mem (.absY hhll)
  | .andAbsX hhll => .mem (.absX hhll)
  | .aslZpg ll => .mem (.zpg ll)
  | .aslAcc => .acc
  | .aslAbs hhll => .mem (.abs hhll)
  | .aslZpgX ll => .mem (.zpgX ll)
  | .aslAbsX hhll => .mem (.absX hhll)
  | .bcc bb => .rel bb
  | .bcs bb => .rel bb
  | .beq bb => .rel bb
  | .bitZpg ll => .mem (.zpg ll)
  | .bitAbs hhll => .mem (.abs hhll)
  | .bmi bb => .rel bb
  | .bne bb => .rel bb
  | .bpl bb => .rel bb
  | .brk => .impl
  | .bvc bb => .rel bb
  | .bvs bb => .rel bb
  | .clc => .impl
  | .cld => .impl
  | .cli => .impl
  | .clv => .impl
  | .cmpXInd bb => .mem (.xInd bb)
  | .cmpZpg ll => .mem (.zpg ll)
  | .cmpImm imm => .imm imm
  | .cmpAbs hhll => .mem (.abs hhll)
  | .cmpIndY ll => .mem (.indY ll)
  | .cmpZpgX ll => .mem (.zpgX ll)
  | .cmpAbsY hhll => .mem (.absY hhll)
  | .cmpAbsX hhll => .mem (.absX hhll)
  | .cpxImm imm => .imm imm
  | .cpxZpg ll => .mem (.zpg ll)
  | .cpxAbs hhll => .mem (.abs hhll)
  | .cpyImm imm => .imm imm
  | .cpyZpg ll => .mem (.zpg ll)
  | .cpyAbs hhll => .mem (.abs hhll)
  | .decZpg ll => .mem (.zpg ll)
  | .decAbs hhll => .mem (.abs hhll)
  | .decZpgX ll => .mem (.zpgX ll)
  | .decAbsX hhll => .mem (.absX hhll)
  | .dex => .impl
  | .dey => .impl
  | .eorXInd bb => .mem (.xInd bb)
  | .eorZpg ll => .mem (.zpg ll)
  | .eorImm imm => .imm imm
  | .eorAbs hhll => .mem (.abs hhll)
  | .eorIndY ll => .mem (.indY ll)
  | .eorZpgX ll => .mem (.zpgX ll)
  | .eorAbsY hhll => .mem (.absY hhll)
  | .eorAbsX hhll => .mem (.absX hhll)
  | .incZpg ll => .mem (.zpg ll)
  | .incAbs hhll => .mem (.abs hhll)
  | .incZpgX ll => .mem (.zpgX ll)
  | .incAbsX hhll => .mem (.absX hhll)
  | .inx => .impl
  | .iny => .impl
  | .jmpAbs hhll => .mem (.abs hhll)
  | .jmpInd hhll => .ind hhll
  | .jsr hhll => .mem (.abs hhll)
  | .ldaXInd bb => .mem (.xInd bb)
  | .ldaZpg ll => .mem (.zpg ll)
  | .ldaImm imm => .imm imm
  | .ldaAbs hhll => .mem (.abs hhll)
  | .ldaIndY ll => .mem (.indY ll)
  | .ldaZpgX ll => .mem (.zpgX ll)
  | .ldaAbsY hhll => .mem (.absY hhll)
  | .ldaAbsX hhll => .mem (.absX hhll)
  | .ldxImm imm => .imm imm
  | .ldxZpg ll => .mem (.zpg ll)
  | .ldxAbs hhll => .mem (.abs hhll)
  | .ldxZpgY ll => .mem (.zpgY ll)
  | .ldxAbsY hhll => .mem (.absY hhll)
  | .ldyImm imm => .imm imm
  | .ldyZpg ll => .mem (.zpg ll)
  | .ldyAbs hhll => .mem (.abs hhll)
  | .ldyZpgX ll => .mem (.zpgX ll)
  | .ldyAbsX hhll => .mem (.absX hhll)
  | .lsrZpg ll => .mem (.zpg ll)
  | .lsrAcc => .acc
  | .lsrAbs hhll => .mem (.abs hhll)
  | .lsrZpgX ll => .mem (.zpgX ll)
  | .lsrAbsX hhll => .mem (.absX hhll)
  | .nop => .impl
  | .oraXInd bb => .mem (.xInd bb)
  | .oraZpg ll => .mem (.zpg ll)
  | .oraImm imm => .imm imm
  | .oraAbs hhll => .mem (.abs hhll)
  | .oraIndY ll => .mem (.indY ll)
  | .oraZpgX ll => .mem (.zpgX ll)
  | .oraAbsY hhll => .mem (.absY hhll)
  | .oraAbsX hhll => .mem (.absX hhll)
  | .pha => .impl
  | .php => .impl
  | .pla => .impl
  | .plp => .impl
  | .rolZpg ll => .mem (.zpg ll)
  | .rolAcc => .acc
  | .rolAbs hhll => .mem (.abs hhll)
  | .rolZpgX ll => .mem (.zpgX ll)
  | .rolAbsX hhll => .mem (.absX hhll)
  | .rorZpg ll => .mem (.zpg ll)
  | .rorAcc => .acc
  | .rorAbs hhll => .mem (.abs hhll)
  | .rorZpgX ll => .mem (.zpgX ll)
  | .rorAbsX hhll => .mem (.absX hhll)
  | .rti => .impl
  | .rts => .impl
  | .sbcXInd bb => .mem (.xInd bb)
  | .sbcZpg ll => .mem (.zpg ll)
  | .sbcImm imm => .imm imm
  | .sbcAbs hhll => .mem (.abs hhll)
  | .sbcIndY ll => .mem (.indY ll)
  | .sbcZpgX ll => .mem (.zpgX ll)
  | .sbcAbsY hhll => .mem (.absY hhll)
  | .sbcAbsX hhll => .mem (.absX hhll)
  | .sec => .impl
  | .sed => .impl
  | .sei => .impl
  | .staXInd bb => .mem (.xInd bb)
  | .staZpg ll => .mem (.zpg ll)
  | .staAbs hhll => .mem (.abs hhll)
  | .staIndY ll => .mem (.indY ll)
  | .staZpgX ll => .mem (.zpgX ll)
  | .staAbsY hhll => .mem (.absY hhll)
  | .staAbsX hhll => .mem (.absX hhll)
  | .stxZpg ll => .mem (.zpg ll)
  | .stxAbs hhll => .mem (.abs hhll)
  | .stxZpgY ll => .mem (.zpgY ll)
  | .styZpg ll => .mem (.zpg ll)
  | .styAbs hhll => .mem (.abs hhll)
  | .styZpgX ll => .mem (.zpgX ll)
  | .tax => .impl
  | .tay => .impl
  | .tsx => .impl
  | .txa => .impl
  | .txs => .impl
  | .tya => .impl

/-- The address mode of an operand (R64). -/
def Operand.mode : Operand → Mode
  | .impl => .impl
  | .acc => .acc
  | .imm _ => .imm
  | .ind _ => .ind
  | .rel _ => .rel
  | .mem (.zpg _) => .zpg
  | .mem (.zpgX _) => .zpgX
  | .mem (.zpgY _) => .zpgY
  | .mem (.abs _) => .abs
  | .mem (.absX _) => .absX
  | .mem (.absY _) => .absY
  | .mem (.xInd _) => .xInd
  | .mem (.indY _) => .indY

/-- The address mode of an instruction. -/
def Instr.mode (i : Instr) : Mode := i.operand.mode

/-- The length in bytes of an instruction of a mode: the formats F1, F2, F3 of R60. -/
def Mode.bytes : Mode → Nat
  | .impl | .acc => 1
  | .imm | .zpg | .zpgX | .zpgY | .xInd | .indY | .rel => 2
  | .abs | .absX | .absY | .ind => 3

/-- The length of an instruction in bytes (R60). -/
def Instr.bytes (i : Instr) : Nat := i.mode.bytes

end Sys2Proof
end

