-- ==== Sys2Proof/Machine/Operands.lean ====
section
/-! DEFINITION. The operand forms: effective addresses (30_encoding.md R67 to R77) and how an instruction's rule uses a mode
(R78). No mode changes a register. -/

namespace Sys2Proof.Machine

/-- The effective address of a mode and the state after the mode's own accesses. Only the two indirect modes make any. -/
def addrEA (m : Addr) (s : State) : Word × State :=
  match m with
  | .zpg ll => (zext16 ll, s)                              -- R75
  | .zpgX ll => (zext16 (ll + s.x), s)                     -- R76: the sum wraps inside page 0
  | .zpgY ll => (zext16 (ll + s.y), s)                     -- R77
  | .abs hhll => (hhll, s)                                 -- R67
  | .absX hhll => (hhll + zext16 s.x, s)                   -- R68: a 16-bit sum
  | .absY hhll => (hhll + zext16 s.y, s)                   -- R69
  | .xInd bb => s.loadInPage (zext16 (bb + s.x))           -- R72
  | .indY ll =>                                            -- R73
    let base := s.loadInPage (zext16 ll)
    (base.1 + zext16 s.y, base.2)

/-- Where a reading instruction takes its operand value M from (R78). -/
inductive Source where
  | imm (bb : Byte)
  | mem (m : Addr)
deriving DecidableEq, Repr

/-- The operand value M and the state after reading it: `b1`, or `MemRead(EA, 1)` after the mode's own accesses (R70, R78). -/
def sourceValue (src : Source) (s : State) : Byte × State :=
  match src with
  | .imm bb => (bb, s)
  | .mem m =>
    let ea := addrEA m s
    ea.2.load ea.1

/-- Where a shift, rotate, increment or decrement reads and writes (R66, R78): A, or a byte of memory. -/
inductive Target where
  | acc
  | mem (m : Addr)
deriving DecidableEq, Repr

/-- Reads the operand, computes the result and the flags, writes the result back (R78, 41_logic_shift.md R128): for memory one
read, then one write of the same address. -/
def readWrite (t : Target) (f : Flags → Byte → Byte × Flags) (s : State) : State :=
  match t with
  | .acc =>
    let r := f s.flags s.a
    (s.withA r.1).withFlags r.2
  | .mem m =>
    let ea := addrEA m s
    let old := ea.2.load ea.1
    let r := f old.2.flags old.1
    (old.2.store ea.1 r.1).withFlags r.2

/-- A store (R78, 44_load_store.md R186): the effective address, then the write; the old content is not read. -/
def storeAt (m : Addr) (v : State → Byte) (s : State) : State :=
  let ea := addrEA m s
  ea.2.store ea.1 (v s)

/-- Load of A with N and Z from the value (R28). -/
def State.putA (s : State) (r : Byte) : State := (s.withA r).withFlags (s.flags.setNZ r)

/-- Load of X with N and Z from the value (R28). -/
def State.putX (s : State) (r : Byte) : State := (s.withX r).withFlags (s.flags.setNZ r)

/-- Load of Y with N and Z from the value (R28). -/
def State.putY (s : State) (r : Byte) : State := (s.withY r).withFlags (s.flags.setNZ r)

/-- The branch target (R74): two's complement offset from the address of the next instruction. -/
def branchTarget (next : Word) (bb : Byte) : Word := next + sext16 bb

end Sys2Proof.Machine
end

