-- ==== Sys2Proof/Machine/Arithmetic.lean ====
section
/-! DEFINITION. Arithmetic (40_arithmetic.md): ADC, CMP, CPX, CPY, DEC, DEX, DEY, INC, INX, INY, SBC. First the rules, then one meaning per opcode. -/

namespace Sys2Proof.Machine

/-- The result of a decimal ADC or SBC (R111, R112). Where A and C are defined, N, V and Z are free; where they are not, A and
all four flags are free. D and I stay. -/
def decimalResult (r : Option (Byte × Bool)) (s : State) : State :=
  match r with
  | some (a, c) =>
    let n := s.draw1
    let v := n.2.draw1
    let z := v.2.draw1
    (z.2.withA a).withFlags { s.flags with n := n.1, v := v.1, z := z.1, c := c }
  | none =>
    let a := s.draw8
    let n := a.2.draw1
    let v := n.2.draw1
    let z := v.2.draw1
    let c := z.2.draw1
    (c.2.withA a.1).withFlags { s.flags with n := n.1, v := v.1, z := z.1, c := c.1 }

/-- The result of a binary ADC or SBC: A and the flags. -/
def binaryResult (r : Byte × Flags) (s : State) : State := (s.withA r.1).withFlags r.2

/-- ADC (R100 when D = 0, R111 when D = 1). -/
def adc (src : Source) (s : State) : State :=
  let m := sourceValue src s
  if m.2.flags.d then decimalResult (addDecimal m.2.flags.c m.2.a m.1) m.2
  else binaryResult (m.2.flags.addBinary m.2.a m.1) m.2

/-- SBC (R110 when D = 0, R112 when D = 1). -/
def sbc (src : Source) (s : State) : State :=
  let m := sourceValue src s
  if m.2.flags.d then decimalResult (subDecimal m.2.flags.c m.2.a m.1) m.2
  else binaryResult (m.2.flags.subBinary m.2.a m.1) m.2

/-- CMP, CPX, CPY (R101 to R103), of the register `reg`: only N, Z and C are written; D is not read. -/
def compareWith (reg : State → Byte) (src : Source) (s : State) : State :=
  let m := sourceValue src s
  m.2.withFlags (m.2.flags.compare (reg m.2) m.1)

/-- INC (R107). -/
def incMem (m : Addr) (s : State) : State := readWrite (.mem m) Flags.inc s

/-- DEC (R104). -/
def decMem (m : Addr) (s : State) : State := readWrite (.mem m) Flags.dec s

/-- INX (R108). -/
def inx (s : State) : State := s.putX (s.x + 1)

/-- INY (R109). -/
def iny (s : State) : State := s.putY (s.y + 1)

/-- DEX (R105). -/
def dex (s : State) : State := s.putX (s.x - 1)

/-- DEY (R106). -/
def dey (s : State) : State := s.putY (s.y - 1)

/-- ADC X,ind, opcode $61 (R100; mode R72). -/
def execAdcXInd (bb : Byte) (s : State) : Host.Outcome State Fault Refusal :=
  complete 2 (adc (.mem (.xInd bb))) s
/-- ADC zpg, opcode $65 (R100; mode R75). -/
def execAdcZpg (ll : Byte) (s : State) : Host.Outcome State Fault Refusal :=
  complete 2 (adc (.mem (.zpg ll))) s
/-- ADC #, opcode $69 (R100; mode R70). -/
def execAdcImm (imm : Byte) (s : State) : Host.Outcome State Fault Refusal :=
  complete 2 (adc (.imm imm)) s
/-- ADC abs, opcode $6D (R100; mode R67). -/
def execAdcAbs (hhll : Word) (s : State) : Host.Outcome State Fault Refusal :=
  complete 3 (adc (.mem (.abs hhll))) s
/-- ADC ind,Y, opcode $71 (R100; mode R73). -/
def execAdcIndY (ll : Byte) (s : State) : Host.Outcome State Fault Refusal :=
  complete 2 (adc (.mem (.indY ll))) s
/-- ADC zpg,X, opcode $75 (R100; mode R76). -/
def execAdcZpgX (ll : Byte) (s : State) : Host.Outcome State Fault Refusal :=
  complete 2 (adc (.mem (.zpgX ll))) s
/-- ADC abs,Y, opcode $79 (R100; mode R69). -/
def execAdcAbsY (hhll : Word) (s : State) : Host.Outcome State Fault Refusal :=
  complete 3 (adc (.mem (.absY hhll))) s
/-- ADC abs,X, opcode $7D (R100; mode R68). -/
def execAdcAbsX (hhll : Word) (s : State) : Host.Outcome State Fault Refusal :=
  complete 3 (adc (.mem (.absX hhll))) s
/-- CMP X,ind, opcode $C1 (R101; mode R72). -/
def execCmpXInd (bb : Byte) (s : State) : Host.Outcome State Fault Refusal :=
  complete 2 (compareWith State.a (.mem (.xInd bb))) s
/-- CMP zpg, opcode $C5 (R101; mode R75). -/
def execCmpZpg (ll : Byte) (s : State) : Host.Outcome State Fault Refusal :=
  complete 2 (compareWith State.a (.mem (.zpg ll))) s
/-- CMP #, opcode $C9 (R101; mode R70). -/
def execCmpImm (imm : Byte) (s : State) : Host.Outcome State Fault Refusal :=
  complete 2 (compareWith State.a (.imm imm)) s
/-- CMP abs, opcode $CD (R101; mode R67). -/
def execCmpAbs (hhll : Word) (s : State) : Host.Outcome State Fault Refusal :=
  complete 3 (compareWith State.a (.mem (.abs hhll))) s
/-- CMP ind,Y, opcode $D1 (R101; mode R73). -/
def execCmpIndY (ll : Byte) (s : State) : Host.Outcome State Fault Refusal :=
  complete 2 (compareWith State.a (.mem (.indY ll))) s
/-- CMP zpg,X, opcode $D5 (R101; mode R76). -/
def execCmpZpgX (ll : Byte) (s : State) : Host.Outcome State Fault Refusal :=
  complete 2 (compareWith State.a (.mem (.zpgX ll))) s
/-- CMP abs,Y, opcode $D9 (R101; mode R69). -/
def execCmpAbsY (hhll : Word) (s : State) : Host.Outcome State Fault Refusal :=
  complete 3 (compareWith State.a (.mem (.absY hhll))) s
/-- CMP abs,X, opcode $DD (R101; mode R68). -/
def execCmpAbsX (hhll : Word) (s : State) : Host.Outcome State Fault Refusal :=
  complete 3 (compareWith State.a (.mem (.absX hhll))) s
/-- CPX #, opcode $E0 (R102; mode R70). -/
def execCpxImm (imm : Byte) (s : State) : Host.Outcome State Fault Refusal :=
  complete 2 (compareWith State.x (.imm imm)) s
/-- CPX zpg, opcode $E4 (R102; mode R75). -/
def execCpxZpg (ll : Byte) (s : State) : Host.Outcome State Fault Refusal :=
  complete 2 (compareWith State.x (.mem (.zpg ll))) s
/-- CPX abs, opcode $EC (R102; mode R67). -/
def execCpxAbs (hhll : Word) (s : State) : Host.Outcome State Fault Refusal :=
  complete 3 (compareWith State.x (.mem (.abs hhll))) s
/-- CPY #, opcode $C0 (R103; mode R70). -/
def execCpyImm (imm : Byte) (s : State) : Host.Outcome State Fault Refusal :=
  complete 2 (compareWith State.y (.imm imm)) s
/-- CPY zpg, opcode $C4 (R103; mode R75). -/
def execCpyZpg (ll : Byte) (s : State) : Host.Outcome State Fault Refusal :=
  complete 2 (compareWith State.y (.mem (.zpg ll))) s
/-- CPY abs, opcode $CC (R103; mode R67). -/
def execCpyAbs (hhll : Word) (s : State) : Host.Outcome State Fault Refusal :=
  complete 3 (compareWith State.y (.mem (.abs hhll))) s
/-- DEC zpg, opcode $C6 (R104; mode R75). -/
def execDecZpg (ll : Byte) (s : State) : Host.Outcome State Fault Refusal :=
  complete 2 (decMem (.zpg ll)) s
/-- DEC abs, opcode $CE (R104; mode R67). -/
def execDecAbs (hhll : Word) (s : State) : Host.Outcome State Fault Refusal :=
  complete 3 (decMem (.abs hhll)) s
/-- DEC zpg,X, opcode $D6 (R104; mode R76). -/
def execDecZpgX (ll : Byte) (s : State) : Host.Outcome State Fault Refusal :=
  complete 2 (decMem (.zpgX ll)) s
/-- DEC abs,X, opcode $DE (R104; mode R68). -/
def execDecAbsX (hhll : Word) (s : State) : Host.Outcome State Fault Refusal :=
  complete 3 (decMem (.absX hhll)) s
/-- DEX, opcode $CA (R105; mode R65). -/
def execDex (s : State) : Host.Outcome State Fault Refusal :=
  complete 1 dex s
/-- DEY, opcode $88 (R106; mode R65). -/
def execDey (s : State) : Host.Outcome State Fault Refusal :=
  complete 1 dey s
/-- INC zpg, opcode $E6 (R107; mode R75). -/
def execIncZpg (ll : Byte) (s : State) : Host.Outcome State Fault Refusal :=
  complete 2 (incMem (.zpg ll)) s
/-- INC abs, opcode $EE (R107; mode R67). -/
def execIncAbs (hhll : Word) (s : State) : Host.Outcome State Fault Refusal :=
  complete 3 (incMem (.abs hhll)) s
/-- INC zpg,X, opcode $F6 (R107; mode R76). -/
def execIncZpgX (ll : Byte) (s : State) : Host.Outcome State Fault Refusal :=
  complete 2 (incMem (.zpgX ll)) s
/-- INC abs,X, opcode $FE (R107; mode R68). -/
def execIncAbsX (hhll : Word) (s : State) : Host.Outcome State Fault Refusal :=
  complete 3 (incMem (.absX hhll)) s
/-- INX, opcode $E8 (R108; mode R65). -/
def execInx (s : State) : Host.Outcome State Fault Refusal :=
  complete 1 inx s
/-- INY, opcode $C8 (R109; mode R65). -/
def execIny (s : State) : Host.Outcome State Fault Refusal :=
  complete 1 iny s
/-- SBC X,ind, opcode $E1 (R110; mode R72). -/
def execSbcXInd (bb : Byte) (s : State) : Host.Outcome State Fault Refusal :=
  complete 2 (sbc (.mem (.xInd bb))) s
/-- SBC zpg, opcode $E5 (R110; mode R75). -/
def execSbcZpg (ll : Byte) (s : State) : Host.Outcome State Fault Refusal :=
  complete 2 (sbc (.mem (.zpg ll))) s
/-- SBC #, opcode $E9 (R110; mode R70). -/
def execSbcImm (imm : Byte) (s : State) : Host.Outcome State Fault Refusal :=
  complete 2 (sbc (.imm imm)) s
/-- SBC abs, opcode $ED (R110; mode R67). -/
def execSbcAbs (hhll : Word) (s : State) : Host.Outcome State Fault Refusal :=
  complete 3 (sbc (.mem (.abs hhll))) s
/-- SBC ind,Y, opcode $F1 (R110; mode R73). -/
def execSbcIndY (ll : Byte) (s : State) : Host.Outcome State Fault Refusal :=
  complete 2 (sbc (.mem (.indY ll))) s
/-- SBC zpg,X, opcode $F5 (R110; mode R76). -/
def execSbcZpgX (ll : Byte) (s : State) : Host.Outcome State Fault Refusal :=
  complete 2 (sbc (.mem (.zpgX ll))) s
/-- SBC abs,Y, opcode $F9 (R110; mode R69). -/
def execSbcAbsY (hhll : Word) (s : State) : Host.Outcome State Fault Refusal :=
  complete 3 (sbc (.mem (.absY hhll))) s
/-- SBC abs,X, opcode $FD (R110; mode R68). -/
def execSbcAbsX (hhll : Word) (s : State) : Host.Outcome State Fault Refusal :=
  complete 3 (sbc (.mem (.absX hhll))) s

end Sys2Proof.Machine
end

