-- ==== Sys2Proof/Machine/Control.lean ====
section
/-! DEFINITION. Control transfer (42_branch_jump.md): the eight conditional branches, JMP, JSR, RTS. None writes a flag. -/

namespace Sys2Proof.Machine

/-- A conditional branch (R140): PC, already past the instruction, moves by the offset where the condition holds. -/
def branchIf (cond : Flags → Bool) (bb : Byte) (s : State) : State :=
  if cond s.flags then s.withPc (branchTarget s.pc bb) else s

/-- JMP through a pointer (R149, 30_encoding.md R71). -/
def jumpIndirect (p : Word) (s : State) : State :=
  let w := s.loadInPage p
  w.2.withPc w.1

/-- Whether the two pushes of a JSR go to the address of its own third byte (93 U9). -/
def jsrOverwrites (sp : Byte) (ret : Word) : Bool :=
  decide (stackAddr sp = ret) || decide (stackAddr (sp - 1) = ret)

/-- JSR (R150): pushes the address of its own third byte, `PC - 1` once PC is past the instruction, and jumps. Where a push
goes to that third byte, the high byte of the new PC is free (R150, U9; log 11). -/
def jsr (target : Word) (s : State) : State :=
  let ret := s.pc - 1
  let pushed := s.push16 ret
  if jsrOverwrites s.sp ret then
    let hi := pushed.draw8
    hi.2.withPc (wordOf hi.1 (loByte target))
  else pushed.withPc target

/-- RTS (R151): pulls the return address, low byte first, and adds 1. -/
def rts (s : State) : State :=
  let w := s.pull16
  w.2.withPc (w.1 + 1)

/-- BCC rel, opcode $90 (R141; mode R74). -/
def execBcc (bb : Byte) (s : State) : Host.Outcome State Fault Refusal :=
  complete 2 (branchIf (fun f => !f.c) bb) s
/-- BCS rel, opcode $B0 (R142; mode R74). -/
def execBcs (bb : Byte) (s : State) : Host.Outcome State Fault Refusal :=
  complete 2 (branchIf (fun f => f.c) bb) s
/-- BEQ rel, opcode $F0 (R143; mode R74). -/
def execBeq (bb : Byte) (s : State) : Host.Outcome State Fault Refusal :=
  complete 2 (branchIf (fun f => f.z) bb) s
/-- BMI rel, opcode $30 (R144; mode R74). -/
def execBmi (bb : Byte) (s : State) : Host.Outcome State Fault Refusal :=
  complete 2 (branchIf (fun f => f.n) bb) s
/-- BNE rel, opcode $D0 (R145; mode R74). -/
def execBne (bb : Byte) (s : State) : Host.Outcome State Fault Refusal :=
  complete 2 (branchIf (fun f => !f.z) bb) s
/-- BPL rel, opcode $10 (R146; mode R74). -/
def execBpl (bb : Byte) (s : State) : Host.Outcome State Fault Refusal :=
  complete 2 (branchIf (fun f => !f.n) bb) s
/-- BVC rel, opcode $50 (R147; mode R74). -/
def execBvc (bb : Byte) (s : State) : Host.Outcome State Fault Refusal :=
  complete 2 (branchIf (fun f => !f.v) bb) s
/-- BVS rel, opcode $70 (R148; mode R74). -/
def execBvs (bb : Byte) (s : State) : Host.Outcome State Fault Refusal :=
  complete 2 (branchIf (fun f => f.v) bb) s
/-- JMP abs, opcode $4C (R149; mode R67). -/
def execJmpAbs (hhll : Word) (s : State) : Host.Outcome State Fault Refusal :=
  complete 3 (fun s => s.withPc hhll) s
/-- JMP ind, opcode $6C (R149; mode R71). -/
def execJmpInd (hhll : Word) (s : State) : Host.Outcome State Fault Refusal :=
  complete 3 (jumpIndirect hhll) s
/-- JSR abs, opcode $20 (R150; mode R67). -/
def execJsr (hhll : Word) (s : State) : Host.Outcome State Fault Refusal :=
  complete 3 (jsr hhll) s
/-- RTS, opcode $60 (R151; mode R65). -/
def execRts (s : State) : Host.Outcome State Fault Refusal :=
  complete 1 rts s

end Sys2Proof.Machine
end

