-- ==== Sys2Proof/Machine/LoadStore.lean ====
section
/-! DEFINITION. Loads and stores (44_load_store.md): LDA, LDX, LDY write a register, N and Z; STA, STX, STY write one byte of memory and no flag (R186). -/

namespace Sys2Proof.Machine

/-- LDA (R180). -/
def lda (src : Source) (s : State) : State := (sourceValue src s).2.putA (sourceValue src s).1

/-- LDX (R181). -/
def ldx (src : Source) (s : State) : State := (sourceValue src s).2.putX (sourceValue src s).1

/-- LDY (R182). -/
def ldy (src : Source) (s : State) : State := (sourceValue src s).2.putY (sourceValue src s).1

/-- LDA X,ind, opcode $A1 (R180; mode R72). -/
def execLdaXInd (bb : Byte) (s : State) : Host.Outcome State Fault Refusal :=
  complete 2 (lda (.mem (.xInd bb))) s
/-- LDA zpg, opcode $A5 (R180; mode R75). -/
def execLdaZpg (ll : Byte) (s : State) : Host.Outcome State Fault Refusal :=
  complete 2 (lda (.mem (.zpg ll))) s
/-- LDA #, opcode $A9 (R180; mode R70). -/
def execLdaImm (imm : Byte) (s : State) : Host.Outcome State Fault Refusal :=
  complete 2 (lda (.imm imm)) s
/-- LDA abs, opcode $AD (R180; mode R67). -/
def execLdaAbs (hhll : Word) (s : State) : Host.Outcome State Fault Refusal :=
  complete 3 (lda (.mem (.abs hhll))) s
/-- LDA ind,Y, opcode $B1 (R180; mode R73). -/
def execLdaIndY (ll : Byte) (s : State) : Host.Outcome State Fault Refusal :=
  complete 2 (lda (.mem (.indY ll))) s
/-- LDA zpg,X, opcode $B5 (R180; mode R76). -/
def execLdaZpgX (ll : Byte) (s : State) : Host.Outcome State Fault Refusal :=
  complete 2 (lda (.mem (.zpgX ll))) s
/-- LDA abs,Y, opcode $B9 (R180; mode R69). -/
def execLdaAbsY (hhll : Word) (s : State) : Host.Outcome State Fault Refusal :=
  complete 3 (lda (.mem (.absY hhll))) s
/-- LDA abs,X, opcode $BD (R180; mode R68). -/
def execLdaAbsX (hhll : Word) (s : State) : Host.Outcome State Fault Refusal :=
  complete 3 (lda (.mem (.absX hhll))) s
/-- LDX #, opcode $A2 (R181; mode R70). -/
def execLdxImm (imm : Byte) (s : State) : Host.Outcome State Fault Refusal :=
  complete 2 (ldx (.imm imm)) s
/-- LDX zpg, opcode $A6 (R181; mode R75). -/
def execLdxZpg (ll : Byte) (s : State) : Host.Outcome State Fault Refusal :=
  complete 2 (ldx (.mem (.zpg ll))) s
/-- LDX abs, opcode $AE (R181; mode R67). -/
def execLdxAbs (hhll : Word) (s : State) : Host.Outcome State Fault Refusal :=
  complete 3 (ldx (.mem (.abs hhll))) s
/-- LDX zpg,Y, opcode $B6 (R181; mode R77). -/
def execLdxZpgY (ll : Byte) (s : State) : Host.Outcome State Fault Refusal :=
  complete 2 (ldx (.mem (.zpgY ll))) s
/-- LDX abs,Y, opcode $BE (R181; mode R69). -/
def execLdxAbsY (hhll : Word) (s : State) : Host.Outcome State Fault Refusal :=
  complete 3 (ldx (.mem (.absY hhll))) s
/-- LDY #, opcode $A0 (R182; mode R70). -/
def execLdyImm (imm : Byte) (s : State) : Host.Outcome State Fault Refusal :=
  complete 2 (ldy (.imm imm)) s
/-- LDY zpg, opcode $A4 (R182; mode R75). -/
def execLdyZpg (ll : Byte) (s : State) : Host.Outcome State Fault Refusal :=
  complete 2 (ldy (.mem (.zpg ll))) s
/-- LDY abs, opcode $AC (R182; mode R67). -/
def execLdyAbs (hhll : Word) (s : State) : Host.Outcome State Fault Refusal :=
  complete 3 (ldy (.mem (.abs hhll))) s
/-- LDY zpg,X, opcode $B4 (R182; mode R76). -/
def execLdyZpgX (ll : Byte) (s : State) : Host.Outcome State Fault Refusal :=
  complete 2 (ldy (.mem (.zpgX ll))) s
/-- LDY abs,X, opcode $BC (R182; mode R68). -/
def execLdyAbsX (hhll : Word) (s : State) : Host.Outcome State Fault Refusal :=
  complete 3 (ldy (.mem (.absX hhll))) s
/-- STA X,ind, opcode $81 (R183; mode R72). -/
def execStaXInd (bb : Byte) (s : State) : Host.Outcome State Fault Refusal :=
  complete 2 (storeAt (.xInd bb) State.a) s
/-- STA zpg, opcode $85 (R183; mode R75). -/
def execStaZpg (ll : Byte) (s : State) : Host.Outcome State Fault Refusal :=
  complete 2 (storeAt (.zpg ll) State.a) s
/-- STA abs, opcode $8D (R183; mode R67). -/
def execStaAbs (hhll : Word) (s : State) : Host.Outcome State Fault Refusal :=
  complete 3 (storeAt (.abs hhll) State.a) s
/-- STA ind,Y, opcode $91 (R183; mode R73). -/
def execStaIndY (ll : Byte) (s : State) : Host.Outcome State Fault Refusal :=
  complete 2 (storeAt (.indY ll) State.a) s
/-- STA zpg,X, opcode $95 (R183; mode R76). -/
def execStaZpgX (ll : Byte) (s : State) : Host.Outcome State Fault Refusal :=
  complete 2 (storeAt (.zpgX ll) State.a) s
/-- STA abs,Y, opcode $99 (R183; mode R69). -/
def execStaAbsY (hhll : Word) (s : State) : Host.Outcome State Fault Refusal :=
  complete 3 (storeAt (.absY hhll) State.a) s
/-- STA abs,X, opcode $9D (R183; mode R68). -/
def execStaAbsX (hhll : Word) (s : State) : Host.Outcome State Fault Refusal :=
  complete 3 (storeAt (.absX hhll) State.a) s
/-- STX zpg, opcode $86 (R184; mode R75). -/
def execStxZpg (ll : Byte) (s : State) : Host.Outcome State Fault Refusal :=
  complete 2 (storeAt (.zpg ll) State.x) s
/-- STX abs, opcode $8E (R184; mode R67). -/
def execStxAbs (hhll : Word) (s : State) : Host.Outcome State Fault Refusal :=
  complete 3 (storeAt (.abs hhll) State.x) s
/-- STX zpg,Y, opcode $96 (R184; mode R77). -/
def execStxZpgY (ll : Byte) (s : State) : Host.Outcome State Fault Refusal :=
  complete 2 (storeAt (.zpgY ll) State.x) s
/-- STY zpg, opcode $84 (R185; mode R75). -/
def execStyZpg (ll : Byte) (s : State) : Host.Outcome State Fault Refusal :=
  complete 2 (storeAt (.zpg ll) State.y) s
/-- STY abs, opcode $8C (R185; mode R67). -/
def execStyAbs (hhll : Word) (s : State) : Host.Outcome State Fault Refusal :=
  complete 3 (storeAt (.abs hhll) State.y) s
/-- STY zpg,X, opcode $94 (R185; mode R76). -/
def execStyZpgX (ll : Byte) (s : State) : Host.Outcome State Fault Refusal :=
  complete 2 (storeAt (.zpgX ll) State.y) s

end Sys2Proof.Machine
end

