-- ==== Sys2Proof/Machine/Logic.lean ====
section
/-! DEFINITION. Logic, bit test, shifts and rotates (41_logic_shift.md): AND, ASL, BIT, EOR, LSR, ORA, ROL, ROR. None reads D. -/

namespace Sys2Proof.Machine

/-- AND, EOR, ORA (R120, R123, R125), by the bitwise operation `op`: A, N and Z are written. -/
def logicWith (op : Byte → Byte → Byte) (src : Source) (s : State) : State :=
  let m := sourceValue src s
  m.2.putA (op m.2.a m.1)

/-- BIT (R122): only N, V and Z are written. -/
def bitTest (src : Source) (s : State) : State :=
  let m := sourceValue src s
  m.2.withFlags (m.2.flags.bitTest m.2.a m.1)

/-- AND X,ind, opcode $21 (R120; mode R72). -/
def execAndXInd (bb : Byte) (s : State) : Host.Outcome State Fault Refusal :=
  complete 2 (logicWith (· &&& ·) (.mem (.xInd bb))) s
/-- AND zpg, opcode $25 (R120; mode R75). -/
def execAndZpg (ll : Byte) (s : State) : Host.Outcome State Fault Refusal :=
  complete 2 (logicWith (· &&& ·) (.mem (.zpg ll))) s
/-- AND #, opcode $29 (R120; mode R70). -/
def execAndImm (imm : Byte) (s : State) : Host.Outcome State Fault Refusal :=
  complete 2 (logicWith (· &&& ·) (.imm imm)) s
/-- AND abs, opcode $2D (R120; mode R67). -/
def execAndAbs (hhll : Word) (s : State) : Host.Outcome State Fault Refusal :=
  complete 3 (logicWith (· &&& ·) (.mem (.abs hhll))) s
/-- AND ind,Y, opcode $31 (R120; mode R73). -/
def execAndIndY (ll : Byte) (s : State) : Host.Outcome State Fault Refusal :=
  complete 2 (logicWith (· &&& ·) (.mem (.indY ll))) s
/-- AND zpg,X, opcode $35 (R120; mode R76). -/
def execAndZpgX (ll : Byte) (s : State) : Host.Outcome State Fault Refusal :=
  complete 2 (logicWith (· &&& ·) (.mem (.zpgX ll))) s
/-- AND abs,Y, opcode $39 (R120; mode R69). -/
def execAndAbsY (hhll : Word) (s : State) : Host.Outcome State Fault Refusal :=
  complete 3 (logicWith (· &&& ·) (.mem (.absY hhll))) s
/-- AND abs,X, opcode $3D (R120; mode R68). -/
def execAndAbsX (hhll : Word) (s : State) : Host.Outcome State Fault Refusal :=
  complete 3 (logicWith (· &&& ·) (.mem (.absX hhll))) s
/-- ASL zpg, opcode $06 (R121; mode R75). -/
def execAslZpg (ll : Byte) (s : State) : Host.Outcome State Fault Refusal :=
  complete 2 (readWrite (.mem (.zpg ll)) Flags.asl) s
/-- ASL A, opcode $0A (R121; mode R66). -/
def execAslAcc (s : State) : Host.Outcome State Fault Refusal :=
  complete 1 (readWrite .acc Flags.asl) s
/-- ASL abs, opcode $0E (R121; mode R67). -/
def execAslAbs (hhll : Word) (s : State) : Host.Outcome State Fault Refusal :=
  complete 3 (readWrite (.mem (.abs hhll)) Flags.asl) s
/-- ASL zpg,X, opcode $16 (R121; mode R76). -/
def execAslZpgX (ll : Byte) (s : State) : Host.Outcome State Fault Refusal :=
  complete 2 (readWrite (.mem (.zpgX ll)) Flags.asl) s
/-- ASL abs,X, opcode $1E (R121; mode R68). -/
def execAslAbsX (hhll : Word) (s : State) : Host.Outcome State Fault Refusal :=
  complete 3 (readWrite (.mem (.absX hhll)) Flags.asl) s
/-- BIT zpg, opcode $24 (R122; mode R75). -/
def execBitZpg (ll : Byte) (s : State) : Host.Outcome State Fault Refusal :=
  complete 2 (bitTest (.mem (.zpg ll))) s
/-- BIT abs, opcode $2C (R122; mode R67). -/
def execBitAbs (hhll : Word) (s : State) : Host.Outcome State Fault Refusal :=
  complete 3 (bitTest (.mem (.abs hhll))) s
/-- EOR X,ind, opcode $41 (R123; mode R72). -/
def execEorXInd (bb : Byte) (s : State) : Host.Outcome State Fault Refusal :=
  complete 2 (logicWith (· ^^^ ·) (.mem (.xInd bb))) s
/-- EOR zpg, opcode $45 (R123; mode R75). -/
def execEorZpg (ll : Byte) (s : State) : Host.Outcome State Fault Refusal :=
  complete 2 (logicWith (· ^^^ ·) (.mem (.zpg ll))) s
/-- EOR #, opcode $49 (R123; mode R70). -/
def execEorImm (imm : Byte) (s : State) : Host.Outcome State Fault Refusal :=
  complete 2 (logicWith (· ^^^ ·) (.imm imm)) s
/-- EOR abs, opcode $4D (R123; mode R67). -/
def execEorAbs (hhll : Word) (s : State) : Host.Outcome State Fault Refusal :=
  complete 3 (logicWith (· ^^^ ·) (.mem (.abs hhll))) s
/-- EOR ind,Y, opcode $51 (R123; mode R73). -/
def execEorIndY (ll : Byte) (s : State) : Host.Outcome State Fault Refusal :=
  complete 2 (logicWith (· ^^^ ·) (.mem (.indY ll))) s
/-- EOR zpg,X, opcode $55 (R123; mode R76). -/
def execEorZpgX (ll : Byte) (s : State) : Host.Outcome State Fault Refusal :=
  complete 2 (logicWith (· ^^^ ·) (.mem (.zpgX ll))) s
/-- EOR abs,Y, opcode $59 (R123; mode R69). -/
def execEorAbsY (hhll : Word) (s : State) : Host.Outcome State Fault Refusal :=
  complete 3 (logicWith (· ^^^ ·) (.mem (.absY hhll))) s
/-- EOR abs,X, opcode $5D (R123; mode R68). -/
def execEorAbsX (hhll : Word) (s : State) : Host.Outcome State Fault Refusal :=
  complete 3 (logicWith (· ^^^ ·) (.mem (.absX hhll))) s
/-- LSR zpg, opcode $46 (R124; mode R75). -/
def execLsrZpg (ll : Byte) (s : State) : Host.Outcome State Fault Refusal :=
  complete 2 (readWrite (.mem (.zpg ll)) Flags.lsr) s
/-- LSR A, opcode $4A (R124; mode R66). -/
def execLsrAcc (s : State) : Host.Outcome State Fault Refusal :=
  complete 1 (readWrite .acc Flags.lsr) s
/-- LSR abs, opcode $4E (R124; mode R67). -/
def execLsrAbs (hhll : Word) (s : State) : Host.Outcome State Fault Refusal :=
  complete 3 (readWrite (.mem (.abs hhll)) Flags.lsr) s
/-- LSR zpg,X, opcode $56 (R124; mode R76). -/
def execLsrZpgX (ll : Byte) (s : State) : Host.Outcome State Fault Refusal :=
  complete 2 (readWrite (.mem (.zpgX ll)) Flags.lsr) s
/-- LSR abs,X, opcode $5E (R124; mode R68). -/
def execLsrAbsX (hhll : Word) (s : State) : Host.Outcome State Fault Refusal :=
  complete 3 (readWrite (.mem (.absX hhll)) Flags.lsr) s
/-- ORA X,ind, opcode $01 (R125; mode R72). -/
def execOraXInd (bb : Byte) (s : State) : Host.Outcome State Fault Refusal :=
  complete 2 (logicWith (· ||| ·) (.mem (.xInd bb))) s
/-- ORA zpg, opcode $05 (R125; mode R75). -/
def execOraZpg (ll : Byte) (s : State) : Host.Outcome State Fault Refusal :=
  complete 2 (logicWith (· ||| ·) (.mem (.zpg ll))) s
/-- ORA #, opcode $09 (R125; mode R70). -/
def execOraImm (imm : Byte) (s : State) : Host.Outcome State Fault Refusal :=
  complete 2 (logicWith (· ||| ·) (.imm imm)) s
/-- ORA abs, opcode $0D (R125; mode R67). -/
def execOraAbs (hhll : Word) (s : State) : Host.Outcome State Fault Refusal :=
  complete 3 (logicWith (· ||| ·) (.mem (.abs hhll))) s
/-- ORA ind,Y, opcode $11 (R125; mode R73). -/
def execOraIndY (ll : Byte) (s : State) : Host.Outcome State Fault Refusal :=
  complete 2 (logicWith (· ||| ·) (.mem (.indY ll))) s
/-- ORA zpg,X, opcode $15 (R125; mode R76). -/
def execOraZpgX (ll : Byte) (s : State) : Host.Outcome State Fault Refusal :=
  complete 2 (logicWith (· ||| ·) (.mem (.zpgX ll))) s
/-- ORA abs,Y, opcode $19 (R125; mode R69). -/
def execOraAbsY (hhll : Word) (s : State) : Host.Outcome State Fault Refusal :=
  complete 3 (logicWith (· ||| ·) (.mem (.absY hhll))) s
/-- ORA abs,X, opcode $1D (R125; mode R68). -/
def execOraAbsX (hhll : Word) (s : State) : Host.Outcome State Fault Refusal :=
  complete 3 (logicWith (· ||| ·) (.mem (.absX hhll))) s
/-- ROL zpg, opcode $26 (R126; mode R75). -/
def execRolZpg (ll : Byte) (s : State) : Host.Outcome State Fault Refusal :=
  complete 2 (readWrite (.mem (.zpg ll)) Flags.rol) s
/-- ROL A, opcode $2A (R126; mode R66). -/
def execRolAcc (s : State) : Host.Outcome State Fault Refusal :=
  complete 1 (readWrite .acc Flags.rol) s
/-- ROL abs, opcode $2E (R126; mode R67). -/
def execRolAbs (hhll : Word) (s : State) : Host.Outcome State Fault Refusal :=
  complete 3 (readWrite (.mem (.abs hhll)) Flags.rol) s
/-- ROL zpg,X, opcode $36 (R126; mode R76). -/
def execRolZpgX (ll : Byte) (s : State) : Host.Outcome State Fault Refusal :=
  complete 2 (readWrite (.mem (.zpgX ll)) Flags.rol) s
/-- ROL abs,X, opcode $3E (R126; mode R68). -/
def execRolAbsX (hhll : Word) (s : State) : Host.Outcome State Fault Refusal :=
  complete 3 (readWrite (.mem (.absX hhll)) Flags.rol) s
/-- ROR zpg, opcode $66 (R127; mode R75). -/
def execRorZpg (ll : Byte) (s : State) : Host.Outcome State Fault Refusal :=
  complete 2 (readWrite (.mem (.zpg ll)) Flags.ror) s
/-- ROR A, opcode $6A (R127; mode R66). -/
def execRorAcc (s : State) : Host.Outcome State Fault Refusal :=
  complete 1 (readWrite .acc Flags.ror) s
/-- ROR abs, opcode $6E (R127; mode R67). -/
def execRorAbs (hhll : Word) (s : State) : Host.Outcome State Fault Refusal :=
  complete 3 (readWrite (.mem (.abs hhll)) Flags.ror) s
/-- ROR zpg,X, opcode $76 (R127; mode R76). -/
def execRorZpgX (ll : Byte) (s : State) : Host.Outcome State Fault Refusal :=
  complete 2 (readWrite (.mem (.zpgX ll)) Flags.ror) s
/-- ROR abs,X, opcode $7E (R127; mode R68). -/
def execRorAbsX (hhll : Word) (s : State) : Host.Outcome State Fault Refusal :=
  complete 3 (readWrite (.mem (.absX hhll)) Flags.ror) s

end Sys2Proof.Machine
end

