-- ==== Sys2Proof/Machine/Stack.lean ====
section
/-! DEFINITION. Stack and transfers (45_stack_transfer.md): PHA, PHP, PLA, PLP, TAX, TAY, TSX, TXA, TXS, TYA. Nothing detects stack overflow. -/

namespace Sys2Proof.Machine

/-- PHA (R190). -/
def pha (s : State) : State := s.push8 s.a

/-- PHP (R191): pushes SR with bits 5 and 4 both 1. -/
def php (s : State) : State := s.push8 (s.flags.toByte true)

/-- PLA (R192). -/
def pla (s : State) : State := s.pull8.2.putA s.pull8.1

/-- PLP (R193): all six flags from the pulled byte. -/
def plp (s : State) : State := s.pull8.2.withFlags (Flags.ofByte s.pull8.1)

/-- TXS (R198): SP, and N and Z by the parameter `TXS_FLAGS`. -/
def txs (s : State) : State := (s.withSp s.x).withFlags (s.flags.afterTxs s.x)

/-- PHA, opcode $48 (R190; mode R65). -/
def execPha (s : State) : Host.Outcome State Fault Refusal :=
  complete 1 pha s
/-- PHP, opcode $08 (R191; mode R65). -/
def execPhp (s : State) : Host.Outcome State Fault Refusal :=
  complete 1 php s
/-- PLA, opcode $68 (R192; mode R65). -/
def execPla (s : State) : Host.Outcome State Fault Refusal :=
  complete 1 pla s
/-- PLP, opcode $28 (R193; mode R65). -/
def execPlp (s : State) : Host.Outcome State Fault Refusal :=
  complete 1 plp s
/-- TAX, opcode $AA (R194; mode R65). -/
def execTax (s : State) : Host.Outcome State Fault Refusal :=
  complete 1 (fun s => s.putX s.a) s
/-- TAY, opcode $A8 (R195; mode R65). -/
def execTay (s : State) : Host.Outcome State Fault Refusal :=
  complete 1 (fun s => s.putY s.a) s
/-- TSX, opcode $BA (R196; mode R65). -/
def execTsx (s : State) : Host.Outcome State Fault Refusal :=
  complete 1 (fun s => s.putX s.sp) s
/-- TXA, opcode $8A (R197; mode R65). -/
def execTxa (s : State) : Host.Outcome State Fault Refusal :=
  complete 1 (fun s => s.putA s.x) s
/-- TXS, opcode $9A (R198; mode R65). -/
def execTxs (s : State) : Host.Outcome State Fault Refusal :=
  complete 1 txs s
/-- TYA, opcode $98 (R199; mode R65). -/
def execTya (s : State) : Host.Outcome State Fault Refusal :=
  complete 1 (fun s => s.putA s.y) s

end Sys2Proof.Machine
end

