-- ==== Sys2Proof/Machine/System.lean ====
section
/-! DEFINITION. System and flag instructions (43_system_flags.md): BRK, CLC, CLD, CLI, CLV, NOP, RTI, SEC, SED, SEI. -/

namespace Sys2Proof.Machine

/-- A write of flags alone. -/
def setFlags (f : Flags → Flags) (s : State) : State := s.withFlags (f s.flags)

/-- BRK (R160): the entry sequence with the return address `pc0 + 2`, `PC + 1` once PC is past the one-byte instruction, with
bit 4 of the pushed byte 1 and the vector shared with IRQ. It is not masked by I. -/
def brk (s : State) : State := s.enter (s.pc + 1) true s.vectors.irq

/-- BRK, opcode $00 (R160; mode R65). -/
def execBrk (s : State) : Host.Outcome State Fault Refusal :=
  complete 1 brk s
/-- CLC, opcode $18 (R161; mode R65). -/
def execClc (s : State) : Host.Outcome State Fault Refusal :=
  complete 1 (setFlags (fun f => { f with c := false })) s
/-- CLD, opcode $D8 (R162; mode R65). -/
def execCld (s : State) : Host.Outcome State Fault Refusal :=
  complete 1 (setFlags (fun f => { f with d := false })) s
/-- CLI, opcode $58 (R163; mode R65). -/
def execCli (s : State) : Host.Outcome State Fault Refusal :=
  complete 1 (setFlags (fun f => { f with i := false })) s
/-- CLV, opcode $B8 (R164; mode R65). -/
def execClv (s : State) : Host.Outcome State Fault Refusal :=
  complete 1 (setFlags (fun f => { f with v := false })) s
/-- NOP, opcode $EA (R165; mode R65). -/
def execNop (s : State) : Host.Outcome State Fault Refusal :=
  complete 1 id s
/-- RTI, opcode $40 (R166; mode R65). -/
def execRti (s : State) : Host.Outcome State Fault Refusal :=
  complete 1 State.returnFromInterrupt s
/-- SEC, opcode $38 (R167; mode R65). -/
def execSec (s : State) : Host.Outcome State Fault Refusal :=
  complete 1 (setFlags (fun f => { f with c := true })) s
/-- SED, opcode $F8 (R168; mode R65). -/
def execSed (s : State) : Host.Outcome State Fault Refusal :=
  complete 1 (setFlags (fun f => { f with d := true })) s
/-- SEI, opcode $78 (R169; mode R65). -/
def execSei (s : State) : Host.Outcome State Fault Refusal :=
  complete 1 (setFlags (fun f => { f with i := true })) s

end Sys2Proof.Machine
end

