-- ==== Sys2Proof/Machine/Dispatch.lean ====
section
/-! DEFINITION. One arm per constructor of Instr: each a direct call of that instruction's meaning. -/

namespace Sys2Proof.Machine

def exec (i : Instr) (s : State) : Host.Outcome State Fault Refusal :=
  match i with
  | .adcXInd bb => Sys2Proof.Machine.execAdcXInd bb s
  | .adcZpg ll => Sys2Proof.Machine.execAdcZpg ll s
  | .adcImm imm => Sys2Proof.Machine.execAdcImm imm s
  | .adcAbs hhll => Sys2Proof.Machine.execAdcAbs hhll s
  | .adcIndY ll => Sys2Proof.Machine.execAdcIndY ll s
  | .adcZpgX ll => Sys2Proof.Machine.execAdcZpgX ll s
  | .adcAbsY hhll => Sys2Proof.Machine.execAdcAbsY hhll s
  | .adcAbsX hhll => Sys2Proof.Machine.execAdcAbsX hhll s
  | .andXInd bb => Sys2Proof.Machine.execAndXInd bb s
  | .andZpg ll => Sys2Proof.Machine.execAndZpg ll s
  | .andImm imm => Sys2Proof.Machine.execAndImm imm s
  | .andAbs hhll => Sys2Proof.Machine.execAndAbs hhll s
  | .andIndY ll => Sys2Proof.Machine.execAndIndY ll s
  | .andZpgX ll => Sys2Proof.Machine.execAndZpgX ll s
  | .andAbsY hhll => Sys2Proof.Machine.execAndAbsY hhll s
  | .andAbsX hhll => Sys2Proof.Machine.execAndAbsX hhll s
  | .aslZpg ll => Sys2Proof.Machine.execAslZpg ll s
  | .aslAcc => Sys2Proof.Machine.execAslAcc s
  | .aslAbs hhll => Sys2Proof.Machine.execAslAbs hhll s
  | .aslZpgX ll => Sys2Proof.Machine.execAslZpgX ll s
  | .aslAbsX hhll => Sys2Proof.Machine.execAslAbsX hhll s
  | .bcc bb => Sys2Proof.Machine.execBcc bb s
  | .bcs bb => Sys2Proof.Machine.execBcs bb s
  | .beq bb => Sys2Proof.Machine.execBeq bb s
  | .bitZpg ll => Sys2Proof.Machine.execBitZpg ll s
  | .bitAbs hhll => Sys2Proof.Machine.execBitAbs hhll s
  | .bmi bb => Sys2Proof.Machine.execBmi bb s
  | .bne bb => Sys2Proof.Machine.execBne bb s
  | .bpl bb => Sys2Proof.Machine.execBpl bb s
  | .brk => Sys2Proof.Machine.execBrk s
  | .bvc bb => Sys2Proof.Machine.execBvc bb s
  | .bvs bb => Sys2Proof.Machine.execBvs bb s
  | .clc => Sys2Proof.Machine.execClc s
  | .cld => Sys2Proof.Machine.execCld s
  | .cli => Sys2Proof.Machine.execCli s
  | .clv => Sys2Proof.Machine.execClv s
  | .cmpXInd bb => Sys2Proof.Machine.execCmpXInd bb s
  | .cmpZpg ll => Sys2Proof.Machine.execCmpZpg ll s
  | .cmpImm imm => Sys2Proof.Machine.execCmpImm imm s
  | .cmpAbs hhll => Sys2Proof.Machine.execCmpAbs hhll s
  | .cmpIndY ll => Sys2Proof.Machine.execCmpIndY ll s
  | .cmpZpgX ll => Sys2Proof.Machine.execCmpZpgX ll s
  | .cmpAbsY hhll => Sys2Proof.Machine.execCmpAbsY hhll s
  | .cmpAbsX hhll => Sys2Proof.Machine.execCmpAbsX hhll s
  | .cpxImm imm => Sys2Proof.Machine.execCpxImm imm s
  | .cpxZpg ll => Sys2Proof.Machine.execCpxZpg ll s
  | .cpxAbs hhll => Sys2Proof.Machine.execCpxAbs hhll s
  | .cpyImm imm => Sys2Proof.Machine.execCpyImm imm s
  | .cpyZpg ll => Sys2Proof.Machine.execCpyZpg ll s
  | .cpyAbs hhll => Sys2Proof.Machine.execCpyAbs hhll s
  | .decZpg ll => Sys2Proof.Machine.execDecZpg ll s
  | .decAbs hhll => Sys2Proof.Machine.execDecAbs hhll s
  | .decZpgX ll => Sys2Proof.Machine.execDecZpgX ll s
  | .decAbsX hhll => Sys2Proof.Machine.execDecAbsX hhll s
  | .dex => Sys2Proof.Machine.execDex s
  | .dey => Sys2Proof.Machine.execDey s
  | .eorXInd bb => Sys2Proof.Machine.execEorXInd bb s
  | .eorZpg ll => Sys2Proof.Machine.execEorZpg ll s
  | .eorImm imm => Sys2Proof.Machine.execEorImm imm s
  | .eorAbs hhll => Sys2Proof.Machine.execEorAbs hhll s
  | .eorIndY ll => Sys2Proof.Machine.execEorIndY ll s
  | .eorZpgX ll => Sys2Proof.Machine.execEorZpgX ll s
  | .eorAbsY hhll => Sys2Proof.Machine.execEorAbsY hhll s
  | .eorAbsX hhll => Sys2Proof.Machine.execEorAbsX hhll s
  | .incZpg ll => Sys2Proof.Machine.execIncZpg ll s
  | .incAbs hhll => Sys2Proof.Machine.execIncAbs hhll s
  | .incZpgX ll => Sys2Proof.Machine.execIncZpgX ll s
  | .incAbsX hhll => Sys2Proof.Machine.execIncAbsX hhll s
  | .inx => Sys2Proof.Machine.execInx s
  | .iny => Sys2Proof.Machine.execIny s
  | .jmpAbs hhll => Sys2Proof.Machine.execJmpAbs hhll s
  | .jmpInd hhll => Sys2Proof.Machine.execJmpInd hhll s
  | .jsr hhll => Sys2Proof.Machine.execJsr hhll s
  | .ldaXInd bb => Sys2Proof.Machine.execLdaXInd bb s
  | .ldaZpg ll => Sys2Proof.Machine.execLdaZpg ll s
  | .ldaImm imm => Sys2Proof.Machine.execLdaImm imm s
  | .ldaAbs hhll => Sys2Proof.Machine.execLdaAbs hhll s
  | .ldaIndY ll => Sys2Proof.Machine.execLdaIndY ll s
  | .ldaZpgX ll => Sys2Proof.Machine.execLdaZpgX ll s
  | .ldaAbsY hhll => Sys2Proof.Machine.execLdaAbsY hhll s
  | .ldaAbsX hhll => Sys2Proof.Machine.execLdaAbsX hhll s
  | .ldxImm imm => Sys2Proof.Machine.execLdxImm imm s
  | .ldxZpg ll => Sys2Proof.Machine.execLdxZpg ll s
  | .ldxAbs hhll => Sys2Proof.Machine.execLdxAbs hhll s
  | .ldxZpgY ll => Sys2Proof.Machine.execLdxZpgY ll s
  | .ldxAbsY hhll => Sys2Proof.Machine.execLdxAbsY hhll s
  | .ldyImm imm => Sys2Proof.Machine.execLdyImm imm s
  | .ldyZpg ll => Sys2Proof.Machine.execLdyZpg ll s
  | .ldyAbs hhll => Sys2Proof.Machine.execLdyAbs hhll s
  | .ldyZpgX ll => Sys2Proof.Machine.execLdyZpgX ll s
  | .ldyAbsX hhll => Sys2Proof.Machine.execLdyAbsX hhll s
  | .lsrZpg ll => Sys2Proof.Machine.execLsrZpg ll s
  | .lsrAcc => Sys2Proof.Machine.execLsrAcc s
  | .lsrAbs hhll => Sys2Proof.Machine.execLsrAbs hhll s
  | .lsrZpgX ll => Sys2Proof.Machine.execLsrZpgX ll s
  | .lsrAbsX hhll => Sys2Proof.Machine.execLsrAbsX hhll s
  | .nop => Sys2Proof.Machine.execNop s
  | .oraXInd bb => Sys2Proof.Machine.execOraXInd bb s
  | .oraZpg ll => Sys2Proof.Machine.execOraZpg ll s
  | .oraImm imm => Sys2Proof.Machine.execOraImm imm s
  | .oraAbs hhll => Sys2Proof.Machine.execOraAbs hhll s
  | .oraIndY ll => Sys2Proof.Machine.execOraIndY ll s
  | .oraZpgX ll => Sys2Proof.Machine.execOraZpgX ll s
  | .oraAbsY hhll => Sys2Proof.Machine.execOraAbsY hhll s
  | .oraAbsX hhll => Sys2Proof.Machine.execOraAbsX hhll s
  | .pha => Sys2Proof.Machine.execPha s
  | .php => Sys2Proof.Machine.execPhp s
  | .pla => Sys2Proof.Machine.execPla s
  | .plp => Sys2Proof.Machine.execPlp s
  | .rolZpg ll => Sys2Proof.Machine.execRolZpg ll s
  | .rolAcc => Sys2Proof.Machine.execRolAcc s
  | .rolAbs hhll => Sys2Proof.Machine.execRolAbs hhll s
  | .rolZpgX ll => Sys2Proof.Machine.execRolZpgX ll s
  | .rolAbsX hhll => Sys2Proof.Machine.execRolAbsX hhll s
  | .rorZpg ll => Sys2Proof.Machine.execRorZpg ll s
  | .rorAcc => Sys2Proof.Machine.execRorAcc s
  | .rorAbs hhll => Sys2Proof.Machine.execRorAbs hhll s
  | .rorZpgX ll => Sys2Proof.Machine.execRorZpgX ll s
  | .rorAbsX hhll => Sys2Proof.Machine.execRorAbsX hhll s
  | .rti => Sys2Proof.Machine.execRti s
  | .rts => Sys2Proof.Machine.execRts s
  | .sbcXInd bb => Sys2Proof.Machine.execSbcXInd bb s
  | .sbcZpg ll => Sys2Proof.Machine.execSbcZpg ll s
  | .sbcImm imm => Sys2Proof.Machine.execSbcImm imm s
  | .sbcAbs hhll => Sys2Proof.Machine.execSbcAbs hhll s
  | .sbcIndY ll => Sys2Proof.Machine.execSbcIndY ll s
  | .sbcZpgX ll => Sys2Proof.Machine.execSbcZpgX ll s
  | .sbcAbsY hhll => Sys2Proof.Machine.execSbcAbsY hhll s
  | .sbcAbsX hhll => Sys2Proof.Machine.execSbcAbsX hhll s
  | .sec => Sys2Proof.Machine.execSec s
  | .sed => Sys2Proof.Machine.execSed s
  | .sei => Sys2Proof.Machine.execSei s
  | .staXInd bb => Sys2Proof.Machine.execStaXInd bb s
  | .staZpg ll => Sys2Proof.Machine.execStaZpg ll s
  | .staAbs hhll => Sys2Proof.Machine.execStaAbs hhll s
  | .staIndY ll => Sys2Proof.Machine.execStaIndY ll s
  | .staZpgX ll => Sys2Proof.Machine.execStaZpgX ll s
  | .staAbsY hhll => Sys2Proof.Machine.execStaAbsY hhll s
  | .staAbsX hhll => Sys2Proof.Machine.execStaAbsX hhll s
  | .stxZpg ll => Sys2Proof.Machine.execStxZpg ll s
  | .stxAbs hhll => Sys2Proof.Machine.execStxAbs hhll s
  | .stxZpgY ll => Sys2Proof.Machine.execStxZpgY ll s
  | .styZpg ll => Sys2Proof.Machine.execStyZpg ll s
  | .styAbs hhll => Sys2Proof.Machine.execStyAbs hhll s
  | .styZpgX ll => Sys2Proof.Machine.execStyZpgX ll s
  | .tax => Sys2Proof.Machine.execTax s
  | .tay => Sys2Proof.Machine.execTay s
  | .tsx => Sys2Proof.Machine.execTsx s
  | .txa => Sys2Proof.Machine.execTxa s
  | .txs => Sys2Proof.Machine.execTxs s
  | .tya => Sys2Proof.Machine.execTya s

end Sys2Proof.Machine
end

