-- ==== Sys2Proof/Decode.lean ====
section
/-! DEFINITION. Decoding, a lookup of the whole first byte (30_encoding.md R61) in the opcode matrix (R80), total on any
bytes; and the encoder, written from the per-mnemonic table (R81) and the formats (R60). -/

namespace Sys2Proof

/-- The three formats of R60: F1 has no operand byte, F2 one, F3 two, `b2:b1`, the low byte first. -/
inductive Form where
  | f1 (i : Instr)
  | f2 (i : Byte → Instr)
  | f3 (i : Word → Instr)

/-- One legal cell of the opcode matrix. -/
structure OpRow where
  opcode : Byte
  form : Form

/-- Row 00 of the matrix (R80). -/
def matrixRow0 : List OpRow := [
  ⟨0x00, .f1 .brk⟩, ⟨0x01, .f2 .oraXInd⟩, ⟨0x05, .f2 .oraZpg⟩, ⟨0x06, .f2 .aslZpg⟩, ⟨0x08, .f1 .php⟩,
  ⟨0x09, .f2 .oraImm⟩, ⟨0x0A, .f1 .aslAcc⟩, ⟨0x0D, .f3 .oraAbs⟩, ⟨0x0E, .f3 .aslAbs⟩]

/-- Row 10 of the matrix (R80). -/
def matrixRow1 : List OpRow := [
  ⟨0x10, .f2 .bpl⟩, ⟨0x11, .f2 .oraIndY⟩, ⟨0x15, .f2 .oraZpgX⟩, ⟨0x16, .f2 .aslZpgX⟩, ⟨0x18, .f1 .clc⟩,
  ⟨0x19, .f3 .oraAbsY⟩, ⟨0x1D, .f3 .oraAbsX⟩, ⟨0x1E, .f3 .aslAbsX⟩]

/-- Row 20 of the matrix (R80). -/
def matrixRow2 : List OpRow := [
  ⟨0x20, .f3 .jsr⟩, ⟨0x21, .f2 .andXInd⟩, ⟨0x24, .f2 .bitZpg⟩, ⟨0x25, .f2 .andZpg⟩, ⟨0x26, .f2 .rolZpg⟩,
  ⟨0x28, .f1 .plp⟩, ⟨0x29, .f2 .andImm⟩, ⟨0x2A, .f1 .rolAcc⟩, ⟨0x2C, .f3 .bitAbs⟩, ⟨0x2D, .f3 .andAbs⟩,
  ⟨0x2E, .f3 .rolAbs⟩]

/-- Row 30 of the matrix (R80). -/
def matrixRow3 : List OpRow := [
  ⟨0x30, .f2 .bmi⟩, ⟨0x31, .f2 .andIndY⟩, ⟨0x35, .f2 .andZpgX⟩, ⟨0x36, .f2 .rolZpgX⟩, ⟨0x38, .f1 .sec⟩,
  ⟨0x39, .f3 .andAbsY⟩, ⟨0x3D, .f3 .andAbsX⟩, ⟨0x3E, .f3 .rolAbsX⟩]

/-- Row 40 of the matrix (R80). -/
def matrixRow4 : List OpRow := [
  ⟨0x40, .f1 .rti⟩, ⟨0x41, .f2 .eorXInd⟩, ⟨0x45, .f2 .eorZpg⟩, ⟨0x46, .f2 .lsrZpg⟩, ⟨0x48, .f1 .pha⟩,
  ⟨0x49, .f2 .eorImm⟩, ⟨0x4A, .f1 .lsrAcc⟩, ⟨0x4C, .f3 .jmpAbs⟩, ⟨0x4D, .f3 .eorAbs⟩, ⟨0x4E, .f3 .lsrAbs⟩]

/-- Row 50 of the matrix (R80). -/
def matrixRow5 : List OpRow := [
  ⟨0x50, .f2 .bvc⟩, ⟨0x51, .f2 .eorIndY⟩, ⟨0x55, .f2 .eorZpgX⟩, ⟨0x56, .f2 .lsrZpgX⟩, ⟨0x58, .f1 .cli⟩,
  ⟨0x59, .f3 .eorAbsY⟩, ⟨0x5D, .f3 .eorAbsX⟩, ⟨0x5E, .f3 .lsrAbsX⟩]

/-- Row 60 of the matrix (R80). -/
def matrixRow6 : List OpRow := [
  ⟨0x60, .f1 .rts⟩, ⟨0x61, .f2 .adcXInd⟩, ⟨0x65, .f2 .adcZpg⟩, ⟨0x66, .f2 .rorZpg⟩, ⟨0x68, .f1 .pla⟩,
  ⟨0x69, .f2 .adcImm⟩, ⟨0x6A, .f1 .rorAcc⟩, ⟨0x6C, .f3 .jmpInd⟩, ⟨0x6D, .f3 .adcAbs⟩, ⟨0x6E, .f3 .rorAbs⟩]

/-- Row 70 of the matrix (R80). -/
def matrixRow7 : List OpRow := [
  ⟨0x70, .f2 .bvs⟩, ⟨0x71, .f2 .adcIndY⟩, ⟨0x75, .f2 .adcZpgX⟩, ⟨0x76, .f2 .rorZpgX⟩, ⟨0x78, .f1 .sei⟩,
  ⟨0x79, .f3 .adcAbsY⟩, ⟨0x7D, .f3 .adcAbsX⟩, ⟨0x7E, .f3 .rorAbsX⟩]

/-- Row 80 of the matrix (R80). -/
def matrixRow8 : List OpRow := [
  ⟨0x81, .f2 .staXInd⟩, ⟨0x84, .f2 .styZpg⟩, ⟨0x85, .f2 .staZpg⟩, ⟨0x86, .f2 .stxZpg⟩, ⟨0x88, .f1 .dey⟩,
  ⟨0x8A, .f1 .txa⟩, ⟨0x8C, .f3 .styAbs⟩, ⟨0x8D, .f3 .staAbs⟩, ⟨0x8E, .f3 .stxAbs⟩]

/-- Row 90 of the matrix (R80). -/
def matrixRow9 : List OpRow := [
  ⟨0x90, .f2 .bcc⟩, ⟨0x91, .f2 .staIndY⟩, ⟨0x94, .f2 .styZpgX⟩, ⟨0x95, .f2 .staZpgX⟩, ⟨0x96, .f2 .stxZpgY⟩,
  ⟨0x98, .f1 .tya⟩, ⟨0x99, .f3 .staAbsY⟩, ⟨0x9A, .f1 .txs⟩, ⟨0x9D, .f3 .staAbsX⟩]

/-- Row A0 of the matrix (R80). -/
def matrixRowA : List OpRow := [
  ⟨0xA0, .f2 .ldyImm⟩, ⟨0xA1, .f2 .ldaXInd⟩, ⟨0xA2, .f2 .ldxImm⟩, ⟨0xA4, .f2 .ldyZpg⟩, ⟨0xA5, .f2 .ldaZpg⟩,
  ⟨0xA6, .f2 .ldxZpg⟩, ⟨0xA8, .f1 .tay⟩, ⟨0xA9, .f2 .ldaImm⟩, ⟨0xAA, .f1 .tax⟩, ⟨0xAC, .f3 .ldyAbs⟩,
  ⟨0xAD, .f3 .ldaAbs⟩, ⟨0xAE, .f3 .ldxAbs⟩]

/-- Row B0 of the matrix (R80). -/
def matrixRowB : List OpRow := [
  ⟨0xB0, .f2 .bcs⟩, ⟨0xB1, .f2 .ldaIndY⟩, ⟨0xB4, .f2 .ldyZpgX⟩, ⟨0xB5, .f2 .ldaZpgX⟩, ⟨0xB6, .f2 .ldxZpgY⟩,
  ⟨0xB8, .f1 .clv⟩, ⟨0xB9, .f3 .ldaAbsY⟩, ⟨0xBA, .f1 .tsx⟩, ⟨0xBC, .f3 .ldyAbsX⟩, ⟨0xBD, .f3 .ldaAbsX⟩,
  ⟨0xBE, .f3 .ldxAbsY⟩]

/-- Row C0 of the matrix (R80). -/
def matrixRowC : List OpRow := [
  ⟨0xC0, .f2 .cpyImm⟩, ⟨0xC1, .f2 .cmpXInd⟩, ⟨0xC4, .f2 .cpyZpg⟩, ⟨0xC5, .f2 .cmpZpg⟩, ⟨0xC6, .f2 .decZpg⟩,
  ⟨0xC8, .f1 .iny⟩, ⟨0xC9, .f2 .cmpImm⟩, ⟨0xCA, .f1 .dex⟩, ⟨0xCC, .f3 .cpyAbs⟩, ⟨0xCD, .f3 .cmpAbs⟩,
  ⟨0xCE, .f3 .decAbs⟩]

/-- Row D0 of the matrix (R80). -/
def matrixRowD : List OpRow := [
  ⟨0xD0, .f2 .bne⟩, ⟨0xD1, .f2 .cmpIndY⟩, ⟨0xD5, .f2 .cmpZpgX⟩, ⟨0xD6, .f2 .decZpgX⟩, ⟨0xD8, .f1 .cld⟩,
  ⟨0xD9, .f3 .cmpAbsY⟩, ⟨0xDD, .f3 .cmpAbsX⟩, ⟨0xDE, .f3 .decAbsX⟩]

/-- Row E0 of the matrix (R80). -/
def matrixRowE : List OpRow := [
  ⟨0xE0, .f2 .cpxImm⟩, ⟨0xE1, .f2 .sbcXInd⟩, ⟨0xE4, .f2 .cpxZpg⟩, ⟨0xE5, .f2 .sbcZpg⟩, ⟨0xE6, .f2 .incZpg⟩,
  ⟨0xE8, .f1 .inx⟩, ⟨0xE9, .f2 .sbcImm⟩, ⟨0xEA, .f1 .nop⟩, ⟨0xEC, .f3 .cpxAbs⟩, ⟨0xED, .f3 .sbcAbs⟩,
  ⟨0xEE, .f3 .incAbs⟩]

/-- Row F0 of the matrix (R80). -/
def matrixRowF : List OpRow := [
  ⟨0xF0, .f2 .beq⟩, ⟨0xF1, .f2 .sbcIndY⟩, ⟨0xF5, .f2 .sbcZpgX⟩, ⟨0xF6, .f2 .incZpgX⟩, ⟨0xF8, .f1 .sed⟩,
  ⟨0xF9, .f3 .sbcAbsY⟩, ⟨0xFD, .f3 .sbcAbsX⟩, ⟨0xFE, .f3 .incAbsX⟩]

/-- The opcode matrix (R80): its 151 legal cells, by rising opcode byte. -/
def matrix : List OpRow :=
  (matrixRow0 ++ matrixRow1 ++ matrixRow2 ++ matrixRow3 ++ matrixRow4 ++ matrixRow5 ++ matrixRow6 ++ matrixRow7) ++
  (matrixRow8 ++ matrixRow9 ++ matrixRowA ++ matrixRowB ++ matrixRowC ++ matrixRowD ++ matrixRowE ++ matrixRowF)

/-- The cell of an opcode byte; `none` for the 105 illegal bytes (R82). -/
def lookup (opc : Byte) : Option Form := (matrix.find? (fun r => r.opcode == opc)).map OpRow.form

/-- Why bytes are no instruction. -/
inductive DecodeError where
  /-- The first byte is one of the 105 illegal opcodes (R82). Raised by `decode`; safe: nothing is given a meaning. -/
  | illegalOpcode (opc : Byte)
  /-- Fewer bytes than the opcode's length (R60). Raised by `decode` only (memory never ends); safe. -/
  | truncated
deriving DecidableEq, Repr

/-- Reads one instruction from the front of `bs` and gives it with the bytes after it (R60 to R62). -/
def decode : List Byte → Except DecodeError (Instr × List Byte)
  | [] => .error .truncated
  | opc :: rest =>
    match lookup opc, rest with
    | none, _ => .error (.illegalOpcode opc)
    | some (.f1 i), rest => .ok (i, rest)
    | some (.f2 i), b1 :: rest => .ok (i b1, rest)
    | some (.f3 i), b1 :: b2 :: rest => .ok (i (wordOf b2 b1), rest)
    | some _, _ => .error .truncated

/-- The bytes of an instruction in memory order (R60, R81): the opcode, then the operand bytes, low byte first (R62). -/
def encode : Instr → List Byte
  | .adcXInd bb => [0x61, bb]
  | .adcZpg ll => [0x65, ll]
  | .adcImm imm => [0x69, imm]
  | .adcAbs hhll => [0x6D, loByte hhll, hiByte hhll]
  | .adcIndY ll => [0x71, ll]
  | .adcZpgX ll => [0x75, ll]
  | .adcAbsY hhll => [0x79, loByte hhll, hiByte hhll]
  | .adcAbsX hhll => [0x7D, loByte hhll, hiByte hhll]
  | .andXInd bb => [0x21, bb]
  | .andZpg ll => [0x25, ll]
  | .andImm imm => [0x29, imm]
  | .andAbs hhll => [0x2D, loByte hhll, hiByte hhll]
  | .andIndY ll => [0x31, ll]
  | .andZpgX ll => [0x35, ll]
  | .andAbsY hhll => [0x39, loByte hhll, hiByte hhll]
  | .andAbsX hhll => [0x3D, loByte hhll, hiByte hhll]
  | .aslZpg ll => [0x06, ll]
  | .aslAcc => [0x0A]
  | .aslAbs hhll => [0x0E, loByte hhll, hiByte hhll]
  | .aslZpgX ll => [0x16, ll]
  | .aslAbsX hhll => [0x1E, loByte hhll, hiByte hhll]
  | .bcc bb => [0x90, bb]
  | .bcs bb => [0xB0, bb]
  | .beq bb => [0xF0, bb]
  | .bitZpg ll => [0x24, ll]
  | .bitAbs hhll => [0x2C, loByte hhll, hiByte hhll]
  | .bmi bb => [0x30, bb]
  | .bne bb => [0xD0, bb]
  | .bpl bb => [0x10, bb]
  | .brk => [0x00]
  | .bvc bb => [0x50, bb]
  | .bvs bb => [0x70, bb]
  | .clc => [0x18]
  | .cld => [0xD8]
  | .cli => [0x58]
  | .clv => [0xB8]
  | .cmpXInd bb => [0xC1, bb]
  | .cmpZpg ll => [0xC5, ll]
  | .cmpImm imm => [0xC9, imm]
  | .cmpAbs hhll => [0xCD, loByte hhll, hiByte hhll]
  | .cmpIndY ll => [0xD1, ll]
  | .cmpZpgX ll => [0xD5, ll]
  | .cmpAbsY hhll => [0xD9, loByte hhll, hiByte hhll]
  | .cmpAbsX hhll => [0xDD, loByte hhll, hiByte hhll]
  | .cpxImm imm => [0xE0, imm]
  | .cpxZpg ll => [0xE4, ll]
  | .cpxAbs hhll => [0xEC, loByte hhll, hiByte hhll]
  | .cpyImm imm => [0xC0, imm]
  | .cpyZpg ll => [0xC4, ll]
  | .cpyAbs hhll => [0xCC, loByte hhll, hiByte hhll]
  | .decZpg ll => [0xC6, ll]
  | .decAbs hhll => [0xCE, loByte hhll, hiByte hhll]
  | .decZpgX ll => [0xD6, ll]
  | .decAbsX hhll => [0xDE, loByte hhll, hiByte hhll]
  | .dex => [0xCA]
  | .dey => [0x88]
  | .eorXInd bb => [0x41, bb]
  | .eorZpg ll => [0x45, ll]
  | .eorImm imm => [0x49, imm]
  | .eorAbs hhll => [0x4D, loByte hhll, hiByte hhll]
  | .eorIndY ll => [0x51, ll]
  | .eorZpgX ll => [0x55, ll]
  | .eorAbsY hhll => [0x59, loByte hhll, hiByte hhll]
  | .eorAbsX hhll => [0x5D, loByte hhll, hiByte hhll]
  | .incZpg ll => [0xE6, ll]
  | .incAbs hhll => [0xEE, loByte hhll, hiByte hhll]
  | .incZpgX ll => [0xF6, ll]
  | .incAbsX hhll => [0xFE, loByte hhll, hiByte hhll]
  | .inx => [0xE8]
  | .iny => [0xC8]
  | .jmpAbs hhll => [0x4C, loByte hhll, hiByte hhll]
  | .jmpInd hhll => [0x6C, loByte hhll, hiByte hhll]
  | .jsr hhll => [0x20, loByte hhll, hiByte hhll]
  | .ldaXInd bb => [0xA1, bb]
  | .ldaZpg ll => [0xA5, ll]
  | .ldaImm imm => [0xA9, imm]
  | .ldaAbs hhll => [0xAD, loByte hhll, hiByte hhll]
  | .ldaIndY ll => [0xB1, ll]
  | .ldaZpgX ll => [0xB5, ll]
  | .ldaAbsY hhll => [0xB9, loByte hhll, hiByte hhll]
  | .ldaAbsX hhll => [0xBD, loByte hhll, hiByte hhll]
  | .ldxImm imm => [0xA2, imm]
  | .ldxZpg ll => [0xA6, ll]
  | .ldxAbs hhll => [0xAE, loByte hhll, hiByte hhll]
  | .ldxZpgY ll => [0xB6, ll]
  | .ldxAbsY hhll => [0xBE, loByte hhll, hiByte hhll]
  | .ldyImm imm => [0xA0, imm]
  | .ldyZpg ll => [0xA4, ll]
  | .ldyAbs hhll => [0xAC, loByte hhll, hiByte hhll]
  | .ldyZpgX ll => [0xB4, ll]
  | .ldyAbsX hhll => [0xBC, loByte hhll, hiByte hhll]
  | .lsrZpg ll => [0x46, ll]
  | .lsrAcc => [0x4A]
  | .lsrAbs hhll => [0x4E, loByte hhll, hiByte hhll]
  | .lsrZpgX ll => [0x56, ll]
  | .lsrAbsX hhll => [0x5E, loByte hhll, hiByte hhll]
  | .nop => [0xEA]
  | .oraXInd bb => [0x01, bb]
  | .oraZpg ll => [0x05, ll]
  | .oraImm imm => [0x09, imm]
  | .oraAbs hhll => [0x0D, loByte hhll, hiByte hhll]
  | .oraIndY ll => [0x11, ll]
  | .oraZpgX ll => [0x15, ll]
  | .oraAbsY hhll => [0x19, loByte hhll, hiByte hhll]
  | .oraAbsX hhll => [0x1D, loByte hhll, hiByte hhll]
  | .pha => [0x48]
  | .php => [0x08]
  | .pla => [0x68]
  | .plp => [0x28]
  | .rolZpg ll => [0x26, ll]
  | .rolAcc => [0x2A]
  | .rolAbs hhll => [0x2E, loByte hhll, hiByte hhll]
  | .rolZpgX ll => [0x36, ll]
  | .rolAbsX hhll => [0x3E, loByte hhll, hiByte hhll]
  | .rorZpg ll => [0x66, ll]
  | .rorAcc => [0x6A]
  | .rorAbs hhll => [0x6E, loByte hhll, hiByte hhll]
  | .rorZpgX ll => [0x76, ll]
  | .rorAbsX hhll => [0x7E, loByte hhll, hiByte hhll]
  | .rti => [0x40]
  | .rts => [0x60]
  | .sbcXInd bb => [0xE1, bb]
  | .sbcZpg ll => [0xE5, ll]
  | .sbcImm imm => [0xE9, imm]
  | .sbcAbs hhll => [0xED, loByte hhll, hiByte hhll]
  | .sbcIndY ll => [0xF1, ll]
  | .sbcZpgX ll => [0xF5, ll]
  | .sbcAbsY hhll => [0xF9, loByte hhll, hiByte hhll]
  | .sbcAbsX hhll => [0xFD, loByte hhll, hiByte hhll]
  | .sec => [0x38]
  | .sed => [0xF8]
  | .sei => [0x78]
  | .staXInd bb => [0x81, bb]
  | .staZpg ll => [0x85, ll]
  | .staAbs hhll => [0x8D, loByte hhll, hiByte hhll]
  | .staIndY ll => [0x91, ll]
  | .staZpgX ll => [0x95, ll]
  | .staAbsY hhll => [0x99, loByte hhll, hiByte hhll]
  | .staAbsX hhll => [0x9D, loByte hhll, hiByte hhll]
  | .stxZpg ll => [0x86, ll]
  | .stxAbs hhll => [0x8E, loByte hhll, hiByte hhll]
  | .stxZpgY ll => [0x96, ll]
  | .styZpg ll => [0x84, ll]
  | .styAbs hhll => [0x8C, loByte hhll, hiByte hhll]
  | .styZpgX ll => [0x94, ll]
  | .tax => [0xAA]
  | .tay => [0xA8]
  | .tsx => [0xBA]
  | .txa => [0x8A]
  | .txs => [0x9A]
  | .tya => [0x98]

/-- Byte `k` of an instruction whose bits are `w`, the first byte in bits 7..0, with every bit from `nbits` on taken as 0. -/
def tableByte (nbits w k : Nat) : Byte := BitVec.ofNat 8 (w % 2 ^ nbits / 256 ^ k)

/-- The instruction the decoder reads from the bits `w`, numbered as spec/opcode_table.json numbers them. -/
def decodeTableWord (nbits w : Nat) : Option Instr :=
  match decode [tableByte nbits w 0, tableByte nbits w 1, tableByte nbits w 2] with
  | .ok r => some r.1
  | .error _ => none

end Sys2Proof
end

