-- ==== Sys2Proof/Machine/Fetch.lean ====
section
/-! DEFINITION. Fetching an instruction at PC, byte by byte through the processor's own accesses (30_encoding.md R63,
20_memory.md R57), and what a test needs to put one there. -/

namespace Sys2Proof.Machine

/-- The fetch of R63: the opcode byte, then as many operand bytes as the opcode's length says, each read from memory now. Gives
the instruction, or the illegal opcode byte, and the state after the accesses; PC is not moved. -/
def State.fetch (s : State) : Except Byte Instr × State :=
  let opc := s.load s.pc
  match lookup opc.1 with
  | none => (.error opc.1, opc.2)
  | some (.f1 i) => (.ok i, opc.2)
  | some (.f2 i) =>
    let b1 := opc.2.load (s.pc + 1)
    (.ok (i b1.1), b1.2)
  | some (.f3 i) =>
    let b1 := opc.2.load (s.pc + 1)
    let b2 := b1.2.load (s.pc + 2)
    (.ok (i (wordOf b2.1 b1.1)), b2.2)

/-- The three bytes `tableByte nbits w 0..2` at PC, PC + 1, PC + 2. -/
def putAtPc (s : State) (nbits w : Nat) : Memory :=
  ((s.mem.write s.pc (tableByte nbits w 0)).write (s.pc + 1) (tableByte nbits w 1)).write (s.pc + 2) (tableByte nbits w 2)

/-- Whether a range makes one of the three bytes at PC no plain memory. -/
def Region.hides (r : Region) (pc : Word) : Bool :=
  r.kind == .external && (r.covers pc || r.covers (pc + 1) || r.covers (pc + 2))

/-- The inputs with the next record idle, so that the next step takes no event. -/
def idleFirst : List Inputs → List Inputs
  | [] => []
  | _ :: rest => Inputs.idle :: rest

end Sys2Proof.Machine
end

