-- ==== Sys2Proof/Machine/Step.lean ====
section
/-! DEFINITION. One step (30_encoding.md R63, 60_exceptions.md R218, R219). -/

namespace Sys2Proof.Machine

/-- One step: the environment's inputs are sampled, at most one event is taken (R218), and otherwise one whole instruction is
fetched and executed. An illegal opcode is the model's fault, with nothing changed (R82, R212). -/
def step (s : State) : Host.Outcome State Fault Refusal :=
  let at_ := s.sample
  match at_.2.event at_.1 with
  | .reset => .next at_.2.takeReset
  | .nmi => .next at_.2.takeNmi
  | .irq => .next at_.2.takeIrq
  | .instruction =>
    match at_.2.fetch with
    | (.error opc, _) => .fault (.illegalOpcode opc)
    | (.ok i, fetched) => exec i fetched

/-- `s` with the instruction whose bits are `w` stored where the next step fetches: at PC, in plain memory, with no NMI pending
and no input asserted at the next boundary. -/
def State.withFetchWord (s : State) (nbits w : Nat) : State :=
  { s with
    mem := putAtPc s nbits w
    nmiPending := false
    platform := s.platform.filter (fun r => !r.hides s.pc)
    inputs := idleFirst s.inputs }

end Sys2Proof.Machine
end

