-- ==== Sys2Proof/Assembly.lean ====
section
/-! DEFINITION. The assembler text of an instruction (30_encoding.md R84, R85): the mnemonic, then the operand in its mode's
template (R64). Two hexadecimal digits select zeropage, four absolute; the relative mode shows the offset byte, as the source's
template does. The processor reads none of it. -/

namespace Sys2Proof

/-- One hexadecimal digit. -/
def hexDigit (n : Nat) : Char :=
  ['0', '1', '2', '3', '4', '5', '6', '7', '8', '9', 'A', 'B', 'C', 'D', 'E', 'F'].getD n '?'

/-- A byte as `$BB`. -/
def hexByte (b : Byte) : List Char := [hexDigit (b.toNat / 16), hexDigit (b.toNat % 16)]

/-- A word as `HHLL`, the high byte first. -/
def hexWord (w : Word) : List Char := hexByte (hiByte w) ++ hexByte (loByte w)

/-- The three letters of a mnemonic. -/
def Mnemonic.text : Mnemonic → String
  | .adc => "ADC"
  | .and => "AND"
  | .asl => "ASL"
  | .bcc => "BCC"
  | .bcs => "BCS"
  | .beq => "BEQ"
  | .bit => "BIT"
  | .bmi => "BMI"
  | .bne => "BNE"
  | .bpl => "BPL"
  | .brk => "BRK"
  | .bvc => "BVC"
  | .bvs => "BVS"
  | .clc => "CLC"
  | .cld => "CLD"
  | .cli => "CLI"
  | .clv => "CLV"
  | .cmp => "CMP"
  | .cpx => "CPX"
  | .cpy => "CPY"
  | .dec => "DEC"
  | .dex => "DEX"
  | .dey => "DEY"
  | .eor => "EOR"
  | .inc => "INC"
  | .inx => "INX"
  | .iny => "INY"
  | .jmp => "JMP"
  | .jsr => "JSR"
  | .lda => "LDA"
  | .ldx => "LDX"
  | .ldy => "LDY"
  | .lsr => "LSR"
  | .nop => "NOP"
  | .ora => "ORA"
  | .pha => "PHA"
  | .php => "PHP"
  | .pla => "PLA"
  | .plp => "PLP"
  | .rol => "ROL"
  | .ror => "ROR"
  | .rti => "RTI"
  | .rts => "RTS"
  | .sbc => "SBC"
  | .sec => "SEC"
  | .sed => "SED"
  | .sei => "SEI"
  | .sta => "STA"
  | .stx => "STX"
  | .sty => "STY"
  | .tax => "TAX"
  | .tay => "TAY"
  | .tsx => "TSX"
  | .txa => "TXA"
  | .txs => "TXS"
  | .tya => "TYA"

/-- An operand in its template (R64). -/
def Operand.text : Operand → String
  | .impl => ""
  | .acc => " A"
  | .imm bb => " #$" ++ String.ofList (hexByte bb)
  | .rel bb => " $" ++ String.ofList (hexByte bb)
  | .ind hhll => " ($" ++ String.ofList (hexWord hhll) ++ ")"
  | .mem (.zpg ll) => " $" ++ String.ofList (hexByte ll)
  | .mem (.zpgX ll) => " $" ++ String.ofList (hexByte ll) ++ ",X"
  | .mem (.zpgY ll) => " $" ++ String.ofList (hexByte ll) ++ ",Y"
  | .mem (.abs hhll) => " $" ++ String.ofList (hexWord hhll)
  | .mem (.absX hhll) => " $" ++ String.ofList (hexWord hhll) ++ ",X"
  | .mem (.absY hhll) => " $" ++ String.ofList (hexWord hhll) ++ ",Y"
  | .mem (.xInd bb) => " ($" ++ String.ofList (hexByte bb) ++ ",X)"
  | .mem (.indY ll) => " ($" ++ String.ofList (hexByte ll) ++ "),Y"

/-- An instruction as one line of assembler source (R84). -/
def Instr.text (i : Instr) : String := i.mnemonic.text ++ i.operand.text

end Sys2Proof
end

