-- ==== Sys2Proof/Machine/Timing.lean ====
section
/-! DEFINITION. Cycle counts (70_reset_and_hazards.md R246 to R248). They are timing: no rule depends on them, no state holds
them, and `step` does not read them (log 14). -/

namespace Sys2Proof.Machine

/-- The cell of the table of R246, without its stars. `DEC abs` is the corrected 6 (90_conflicts.md C6). -/
def tableCycles : Instr → Nat
  | .adcImm _ | .andImm _ | .aslAcc | .bcc _ | .bcs _ | .beq _ | .bmi _
  | .bne _ | .bpl _ | .bvc _ | .bvs _ | .clc | .cld | .cli
  | .clv | .cmpImm _ | .cpxImm _ | .cpyImm _ | .dex | .dey | .eorImm _
  | .inx | .iny | .ldaImm _ | .ldxImm _ | .ldyImm _ | .lsrAcc | .nop
  | .oraImm _ | .rolAcc | .rorAcc | .sbcImm _ | .sec | .sed | .sei
  | .tax | .tay | .tsx | .txa | .txs | .tya => 2
  | .adcZpg _ | .andZpg _ | .bitZpg _ | .cmpZpg _ | .cpxZpg _ | .cpyZpg _ | .eorZpg _
  | .jmpAbs _ | .ldaZpg _ | .ldxZpg _ | .ldyZpg _ | .oraZpg _ | .pha | .php
  | .sbcZpg _ | .staZpg _ | .stxZpg _ | .styZpg _ => 3
  | .adcAbs _ | .adcZpgX _ | .adcAbsY _ | .adcAbsX _ | .andAbs _ | .andZpgX _ | .andAbsY _
  | .andAbsX _ | .bitAbs _ | .cmpAbs _ | .cmpZpgX _ | .cmpAbsY _ | .cmpAbsX _ | .cpxAbs _
  | .cpyAbs _ | .eorAbs _ | .eorZpgX _ | .eorAbsY _ | .eorAbsX _ | .ldaAbs _ | .ldaZpgX _
  | .ldaAbsY _ | .ldaAbsX _ | .ldxAbs _ | .ldxZpgY _ | .ldxAbsY _ | .ldyAbs _ | .ldyZpgX _
  | .ldyAbsX _ | .oraAbs _ | .oraZpgX _ | .oraAbsY _ | .oraAbsX _ | .pla | .plp
  | .sbcAbs _ | .sbcZpgX _ | .sbcAbsY _ | .sbcAbsX _ | .staAbs _ | .staZpgX _ | .stxAbs _
  | .stxZpgY _ | .styAbs _ | .styZpgX _ => 4
  | .adcIndY _ | .andIndY _ | .aslZpg _ | .cmpIndY _ | .decZpg _ | .eorIndY _ | .incZpg _
  | .jmpInd _ | .ldaIndY _ | .lsrZpg _ | .oraIndY _ | .rolZpg _ | .rorZpg _ | .sbcIndY _
  | .staAbsY _ | .staAbsX _ => 5
  | .adcXInd _ | .andXInd _ | .aslAbs _ | .aslZpgX _ | .cmpXInd _ | .decAbs _ | .decZpgX _
  | .eorXInd _ | .incAbs _ | .incZpgX _ | .jsr _ | .ldaXInd _ | .lsrAbs _ | .lsrZpgX _
  | .oraXInd _ | .rolAbs _ | .rolZpgX _ | .rorAbs _ | .rorZpgX _ | .rti | .rts
  | .sbcXInd _ | .staXInd _ | .staIndY _ => 6
  | .aslAbsX _ | .brk | .decAbsX _ | .incAbsX _ | .lsrAbsX _ | .rolAbsX _ | .rorAbsX _ => 7

/-- Whether the cell of R246 carries one star: the indexed reads (the indexed stores and read-modify-writes do not, R247). -/
def starred (i : Instr) : Bool :=
  match i.mode with
  | .absX | .absY | .indY => [Mnemonic.adc, .and, .cmp, .eor, .lda, .ldx, .ldy, .ora, .sbc].contains i.mnemonic
  | _ => false

/-- Whether an indexed mode crosses a page (30_encoding.md R79): the indexed address has another high byte than its base. -/
def pageCrossed (m : Addr) (s : State) : Bool :=
  match m with
  | .absX hhll | .absY hhll => hiByte (addrEA m s).1 != hiByte hhll
  | .indY ll => hiByte (addrEA m s).1 != hiByte (s.loadInPage (zext16 ll)).1
  | _ => false

/-- Whether a conditional branch is taken (42_branch_jump.md R141 to R148); `none` for any other instruction. -/
def branchTaken (i : Instr) (f : Flags) : Option (Bool × Byte) :=
  match i with
  | .bcc bb => some (!f.c, bb)
  | .bcs bb => some (f.c, bb)
  | .beq bb => some (f.z, bb)
  | .bmi bb => some (f.n, bb)
  | .bne bb => some (!f.z, bb)
  | .bpl bb => some (!f.n, bb)
  | .bvc bb => some (!f.v, bb)
  | .bvs bb => some (f.v, bb)
  | _ => none

/-- The cycles added by the footnotes (R247), for the instruction at the state's PC: 1 for a starred read that crosses a page;
for a branch taken, 1 on the page of the next instruction and 2 to another. -/
def extraCycles (i : Instr) (s : State) : Nat :=
  match i.operand, branchTaken i s.flags with
  | .mem m, _ => if starred i && pageCrossed m s then 1 else 0
  | _, some (true, bb) => if hiByte (branchTarget (s.pc + 2) bb) == hiByte (s.pc + 2) then 1 else 2
  | _, _ => 0

/-- The duration of an instruction that is at the state's PC. -/
def cycles (i : Instr) (s : State) : Nat := tableCycles i + extraCycles i s

/-- The duration of a step: 7 cycles for IRQ, NMI and reset each (R248), else the fetched instruction's; `none` where the fetched
byte is illegal. -/
def stepCycles (s : State) : Option Nat :=
  let at_ := s.sample
  match at_.2.event at_.1 with
  | .reset | .nmi | .irq => some 7
  | .instruction =>
    match at_.2.fetch with
    | (.error _, _) => none
    | (.ok i, fetched) => some (cycles i fetched)

end Sys2Proof.Machine
end

