-- ==== Sys2Proof/Safety.lean ====
section
/-! DEFINITION. The words claims use of runs: runs, the end of a run, faults, and the side conditions the spec names. -/

namespace Sys2Proof.Machine

/-- `t` is reached from `s` by steps that all answer a next state. -/
inductive Runs : State → State → Prop where
  | refl (s : State) : Runs s s
  | step {s t u : State} (h : Runs s t) (last : Sys2Proof.Machine.step t = .next u) : Runs s u

/-- The parameter `END_OF_RUN` (70_reset_and_hazards.md R249): the two conventions a model may take (log 20). -/
inductive EndOfRun where
  /-- (a) PC equals a stated address. -/
  | atPc (w : Word)
  /-- (b) the next instruction is a JMP to its own address. -/
  | jumpToSelf
deriving DecidableEq, Repr

/-- Whether a state is the end of a run. -/
def EndOfRun.reached (e : EndOfRun) (s : State) : Bool :=
  match e with
  | .atPc w => s.pc == w
  | .jumpToSelf =>
    match s.fetch.1 with
    | .ok (.jmpAbs t) => t == s.pc
    | _ => false

/-- Whether the next step stops with the fault of R82. -/
def faultsNext (s : State) : Bool :=
  match step s with
  | .fault _ => true
  | _ => false

/-- No fault within `k` steps. -/
def safeFor : Nat → State → Bool
  | 0, _ => true
  | k + 1, s =>
    match step s with
    | .next t => safeFor k t
    | .fault _ | .refused _ => false

/-- An address that reads as memory holds it: RAM or ROM (20_memory.md R51). -/
def State.plainAt (s : State) (a : Word) : Bool := s.kindAt a != .external

/-- Every byte of the stack page is RAM, which the ISA needs and does not check (70_reset_and_hazards.md R242). -/
def State.stackIsRam (s : State) : Prop := ∀ sp : Byte, s.kindAt (stackAddr sp) = .ram

/-- No event is taken at the coming boundary: an instruction is. -/
def State.quiet (s : State) : Bool := s.sample.2.event s.sample.1 == .instruction

/-- The pieces of state an instruction can write, PC apart (10_state.md R38). Memory counts as one. -/
inductive Part where
  | a | x | y | sp | n | v | d | i | z | c | mem | nmi
deriving DecidableEq, Repr

/-- The piece is in `t` what it is in `s`; for memory: every byte reads as before. -/
def Part.same (p : Part) (s t : State) : Prop :=
  match p with
  | .a => t.a = s.a
  | .x => t.x = s.x
  | .y => t.y = s.y
  | .sp => t.sp = s.sp
  | .n => t.flags.n = s.flags.n
  | .v => t.flags.v = s.flags.v
  | .d => t.flags.d = s.flags.d
  | .i => t.flags.i = s.flags.i
  | .z => t.flags.z = s.flags.z
  | .c => t.flags.c = s.flags.c
  | .mem => ∀ b : Word, t.mem.read b = s.mem.read b
  | .nmi => t.nmiPending = s.nmiPending

/-- Every piece not named is unchanged, and so are the platform's map, the vectors' addresses and the inputs to come. -/
def KeepsAllBut (written : List Part) (s t : State) : Prop :=
  (∀ p : Part, p ∉ written → p.same s t) ∧ t.platform = s.platform ∧ t.vectors = s.vectors ∧ t.inputs = s.inputs

/-- At most the byte at `a` changes: it becomes `v` where `a` is RAM (20_memory.md R47, R51). Every other byte reads as before. -/
def StoredOnly (s t : State) (a : Word) (v : Byte) : Prop :=
  ∀ b : Word, t.mem.read b = if b = a ∧ s.kindAt a = .ram then v else s.mem.read b

/-- The column "writes" of R38, PC apart. LSR's N and TXS's N and Z are there by the parameters `LSR_N`, `TXS_FLAGS`. -/
def writtenParts (i : Instr) : List Part :=
  match i.mnemonic, i.operand with
  | .adc, _ | .sbc, _ => [.a, .n, .v, .z, .c]
  | .and, _ | .eor, _ | .ora, _ => [.a, .n, .z]
  | .asl, .acc | .lsr, .acc | .rol, .acc | .ror, .acc => [.a, .c, .z, .n]
  | .asl, _ | .lsr, _ | .rol, _ | .ror, _ => [.mem, .c, .z, .n]
  | .bit, _ => [.n, .v, .z]
  | .bcc, _ | .bcs, _ | .beq, _ | .bne, _ | .bmi, _ | .bpl, _ | .bvc, _ | .bvs, _ => []
  | .brk, _ => [.sp, .i, .mem]
  | .clc, _ | .sec, _ => [.c]
  | .cld, _ | .sed, _ => [.d]
  | .cli, _ | .sei, _ => [.i]
  | .clv, _ => [.v]
  | .cmp, _ | .cpx, _ | .cpy, _ => [.n, .z, .c]
  | .dec, _ | .inc, _ => [.mem, .n, .z]
  | .dex, _ | .inx, _ => [.x, .n, .z]
  | .dey, _ | .iny, _ => [.y, .n, .z]
  | .jmp, _ => []
  | .jsr, _ => [.sp, .mem]
  | .lda, _ => [.a, .n, .z]
  | .ldx, _ => [.x, .n, .z]
  | .ldy, _ => [.y, .n, .z]
  | .nop, _ => []
  | .pha, _ | .php, _ => [.sp, .mem]
  | .pla, _ => [.a, .sp, .n, .z]
  | .plp, _ => [.sp, .n, .v, .d, .i, .z, .c]
  | .rti, _ => [.sp, .n, .v, .d, .i, .z, .c]
  | .rts, _ => [.sp]
  | .sta, _ | .stx, _ | .sty, _ => [.mem]
  | .tax, _ | .tsx, _ => [.x, .n, .z]
  | .tay, _ => [.y, .n, .z]
  | .txa, _ | .tya, _ => [.a, .n, .z]
  | .txs, _ => [.sp, .n, .z]

end Sys2Proof.Machine
end

