-- ==== Sys2Proof/WellFormed.lean ====
section
/-! DEFINITION. Which mnemonic has which address mode: the lists "Instructions: ..." of 30_encoding.md R65 to R77, one check
for each mode. Every operand value is legal (R83), so an instruction of `Instr` has nothing else to check. -/

namespace Sys2Proof

/-- The instructions of each address mode, as R65 to R77 list them. -/
def Mode.instructions : Mode → List Mnemonic
  | .impl =>
    [.brk, .clc, .cld, .cli, .clv, .dex, .dey, .inx, .iny, .nop, .pha, .php,
     .pla, .plp, .rti, .rts, .sec, .sed, .sei, .tax, .tay, .tsx, .txa, .txs, .tya]
  | .acc => [.asl, .lsr, .rol, .ror]
  | .abs =>
    [.adc, .and, .asl, .bit, .cmp, .cpx, .cpy, .dec, .eor, .inc, .jmp,
     .jsr, .lda, .ldx, .ldy, .lsr, .ora, .rol, .ror, .sbc, .sta, .stx, .sty]
  | .absX => [.adc, .and, .asl, .cmp, .dec, .eor, .inc, .lda, .ldy, .lsr, .ora, .rol, .ror, .sbc, .sta]
  | .absY => [.adc, .and, .cmp, .eor, .lda, .ldx, .ora, .sbc, .sta]
  | .imm => [.adc, .and, .cmp, .cpx, .cpy, .eor, .lda, .ldx, .ldy, .ora, .sbc]
  | .ind => [.jmp]
  | .xInd => [.adc, .and, .cmp, .eor, .lda, .ora, .sbc, .sta]
  | .indY => [.adc, .and, .cmp, .eor, .lda, .ora, .sbc, .sta]
  | .rel => [.bcc, .bcs, .beq, .bmi, .bne, .bpl, .bvc, .bvs]
  | .zpg =>
    [.adc, .and, .asl, .bit, .cmp, .cpx, .cpy, .dec, .eor, .inc,
     .lda, .ldx, .ldy, .lsr, .ora, .rol, .ror, .sbc, .sta, .stx, .sty]
  | .zpgX => [.adc, .and, .asl, .cmp, .dec, .eor, .inc, .lda, .ldy, .lsr, .ora, .rol, .ror, .sbc, .sta, .sty]
  | .zpgY => [.ldx, .stx]

/-- Whether the mnemonic has a form in the mode (R81): an empty cell of that table does not exist. -/
def formExists (m : Mnemonic) (md : Mode) : Bool := md.instructions.contains m

/-- Well-formedness of an instruction: its mnemonic has its mode. -/
def Instr.wellFormed (i : Instr) : Bool := formExists i.mnemonic i.mode

end Sys2Proof
end

