-- ==== Sys2Proof/Certificates/Slice0/Obligations.lean ====
section
/-! DEFINITION. The statements for the provers, from the numbered rules of spec/. First the words they share (namespace
Sys2Proof.Claims), then one definition per statement. Every statement about an instruction says what it answers for every state
and every operand, its result, and its frame: all pieces of state not named as written are unchanged. -/

namespace Sys2Proof.Claims
open Sys2Proof Sys2Proof.Machine

/-! ### The encoding tables of the instruction rules -/

/-- One line of an encoding table: opcode, bytes, cycles (and whether starred), the instruction, its operand. -/
structure TableRow (α : Type) where
  opcode : Byte
  bytes : Nat
  cycles : Nat
  star : Bool
  instr : Instr
  operand : α

/-- The model's encoding, length and cycle count are the line's. -/
def TableRow.printed {α : Type} (r : TableRow α) : Prop :=
  (encode r.instr).head? = some r.opcode ∧ (encode r.instr).length = r.bytes ∧
    tableCycles r.instr = r.cycles ∧ starred r.instr = r.star

/-- The line of a one-byte instruction without operand. -/
def Implied (opcode : Byte) (cycles : Nat) (i : Instr) : Prop := encode i = [opcode] ∧ tableCycles i = cycles

/-- The encoding table of R100 (ADC). -/
def adcRows (bb : Byte) (w : Word) : List (TableRow Source) :=
  [⟨0x69, 2, 2, false, .adcImm bb, .imm bb⟩, ⟨0x65, 2, 3, false, .adcZpg bb, .mem (.zpg bb)⟩,
   ⟨0x75, 2, 4, false, .adcZpgX bb, .mem (.zpgX bb)⟩, ⟨0x6D, 3, 4, false, .adcAbs w, .mem (.abs w)⟩,
   ⟨0x7D, 3, 4, true, .adcAbsX w, .mem (.absX w)⟩, ⟨0x79, 3, 4, true, .adcAbsY w, .mem (.absY w)⟩,
   ⟨0x61, 2, 6, false, .adcXInd bb, .mem (.xInd bb)⟩, ⟨0x71, 2, 5, true, .adcIndY bb, .mem (.indY bb)⟩]

/-- The encoding table of R110 (SBC). -/
def sbcRows (bb : Byte) (w : Word) : List (TableRow Source) :=
  [⟨0xE9, 2, 2, false, .sbcImm bb, .imm bb⟩, ⟨0xE5, 2, 3, false, .sbcZpg bb, .mem (.zpg bb)⟩,
   ⟨0xF5, 2, 4, false, .sbcZpgX bb, .mem (.zpgX bb)⟩, ⟨0xED, 3, 4, false, .sbcAbs w, .mem (.abs w)⟩,
   ⟨0xFD, 3, 4, true, .sbcAbsX w, .mem (.absX w)⟩, ⟨0xF9, 3, 4, true, .sbcAbsY w, .mem (.absY w)⟩,
   ⟨0xE1, 2, 6, false, .sbcXInd bb, .mem (.xInd bb)⟩, ⟨0xF1, 2, 5, true, .sbcIndY bb, .mem (.indY bb)⟩]

/-- The encoding table of R101 (CMP). -/
def cmpRows (bb : Byte) (w : Word) : List (TableRow Source) :=
  [⟨0xC9, 2, 2, false, .cmpImm bb, .imm bb⟩, ⟨0xC5, 2, 3, false, .cmpZpg bb, .mem (.zpg bb)⟩,
   ⟨0xD5, 2, 4, false, .cmpZpgX bb, .mem (.zpgX bb)⟩, ⟨0xCD, 3, 4, false, .cmpAbs w, .mem (.abs w)⟩,
   ⟨0xDD, 3, 4, true, .cmpAbsX w, .mem (.absX w)⟩, ⟨0xD9, 3, 4, true, .cmpAbsY w, .mem (.absY w)⟩,
   ⟨0xC1, 2, 6, false, .cmpXInd bb, .mem (.xInd bb)⟩, ⟨0xD1, 2, 5, true, .cmpIndY bb, .mem (.indY bb)⟩]

/-- The encoding table of R102 (CPX). -/
def cpxRows (bb : Byte) (w : Word) : List (TableRow Source) :=
  [⟨0xE0, 2, 2, false, .cpxImm bb, .imm bb⟩, ⟨0xE4, 2, 3, false, .cpxZpg bb, .mem (.zpg bb)⟩,
   ⟨0xEC, 3, 4, false, .cpxAbs w, .mem (.abs w)⟩]

/-- The encoding table of R103 (CPY). -/
def cpyRows (bb : Byte) (w : Word) : List (TableRow Source) :=
  [⟨0xC0, 2, 2, false, .cpyImm bb, .imm bb⟩, ⟨0xC4, 2, 3, false, .cpyZpg bb, .mem (.zpg bb)⟩,
   ⟨0xCC, 3, 4, false, .cpyAbs w, .mem (.abs w)⟩]

/-- The encoding table of R120 (AND). -/
def andRows (bb : Byte) (w : Word) : List (TableRow Source) :=
  [⟨0x29, 2, 2, false, .andImm bb, .imm bb⟩, ⟨0x25, 2, 3, false, .andZpg bb, .mem (.zpg bb)⟩,
   ⟨0x35, 2, 4, false, .andZpgX bb, .mem (.zpgX bb)⟩, ⟨0x2D, 3, 4, false, .andAbs w, .mem (.abs w)⟩,
   ⟨0x3D, 3, 4, true, .andAbsX w, .mem (.absX w)⟩, ⟨0x39, 3, 4, true, .andAbsY w, .mem (.absY w)⟩,
   ⟨0x21, 2, 6, false, .andXInd bb, .mem (.xInd bb)⟩, ⟨0x31, 2, 5, true, .andIndY bb, .mem (.indY bb)⟩]

/-- The encoding table of R123 (EOR). -/
def eorRows (bb : Byte) (w : Word) : List (TableRow Source) :=
  [⟨0x49, 2, 2, false, .eorImm bb, .imm bb⟩, ⟨0x45, 2, 3, false, .eorZpg bb, .mem (.zpg bb)⟩,
   ⟨0x55, 2, 4, false, .eorZpgX bb, .mem (.zpgX bb)⟩, ⟨0x4D, 3, 4, false, .eorAbs w, .mem (.abs w)⟩,
   ⟨0x5D, 3, 4, true, .eorAbsX w, .mem (.absX w)⟩, ⟨0x59, 3, 4, true, .eorAbsY w, .mem (.absY w)⟩,
   ⟨0x41, 2, 6, false, .eorXInd bb, .mem (.xInd bb)⟩, ⟨0x51, 2, 5, true, .eorIndY bb, .mem (.indY bb)⟩]

/-- The encoding table of R125 (ORA). -/
def oraRows (bb : Byte) (w : Word) : List (TableRow Source) :=
  [⟨0x09, 2, 2, false, .oraImm bb, .imm bb⟩, ⟨0x05, 2, 3, false, .oraZpg bb, .mem (.zpg bb)⟩,
   ⟨0x15, 2, 4, false, .oraZpgX bb, .mem (.zpgX bb)⟩, ⟨0x0D, 3, 4, false, .oraAbs w, .mem (.abs w)⟩,
   ⟨0x1D, 3, 4, true, .oraAbsX w, .mem (.absX w)⟩, ⟨0x19, 3, 4, true, .oraAbsY w, .mem (.absY w)⟩,
   ⟨0x01, 2, 6, false, .oraXInd bb, .mem (.xInd bb)⟩, ⟨0x11, 2, 5, true, .oraIndY bb, .mem (.indY bb)⟩]

/-- The encoding table of R122 (BIT). -/
def bitRows (bb : Byte) (w : Word) : List (TableRow Source) :=
  [⟨0x24, 2, 3, false, .bitZpg bb, .mem (.zpg bb)⟩, ⟨0x2C, 3, 4, false, .bitAbs w, .mem (.abs w)⟩]

/-- The encoding table of R180 (LDA). -/
def ldaRows (bb : Byte) (w : Word) : List (TableRow Source) :=
  [⟨0xA9, 2, 2, false, .ldaImm bb, .imm bb⟩, ⟨0xA5, 2, 3, false, .ldaZpg bb, .mem (.zpg bb)⟩,
   ⟨0xB5, 2, 4, false, .ldaZpgX bb, .mem (.zpgX bb)⟩, ⟨0xAD, 3, 4, false, .ldaAbs w, .mem (.abs w)⟩,
   ⟨0xBD, 3, 4, true, .ldaAbsX w, .mem (.absX w)⟩, ⟨0xB9, 3, 4, true, .ldaAbsY w, .mem (.absY w)⟩,
   ⟨0xA1, 2, 6, false, .ldaXInd bb, .mem (.xInd bb)⟩, ⟨0xB1, 2, 5, true, .ldaIndY bb, .mem (.indY bb)⟩]

/-- The encoding table of R181 (LDX). -/
def ldxRows (bb : Byte) (w : Word) : List (TableRow Source) :=
  [⟨0xA2, 2, 2, false, .ldxImm bb, .imm bb⟩, ⟨0xA6, 2, 3, false, .ldxZpg bb, .mem (.zpg bb)⟩,
   ⟨0xB6, 2, 4, false, .ldxZpgY bb, .mem (.zpgY bb)⟩, ⟨0xAE, 3, 4, false, .ldxAbs w, .mem (.abs w)⟩,
   ⟨0xBE, 3, 4, true, .ldxAbsY w, .mem (.absY w)⟩]

/-- The encoding table of R182 (LDY). -/
def ldyRows (bb : Byte) (w : Word) : List (TableRow Source) :=
  [⟨0xA0, 2, 2, false, .ldyImm bb, .imm bb⟩, ⟨0xA4, 2, 3, false, .ldyZpg bb, .mem (.zpg bb)⟩,
   ⟨0xB4, 2, 4, false, .ldyZpgX bb, .mem (.zpgX bb)⟩, ⟨0xAC, 3, 4, false, .ldyAbs w, .mem (.abs w)⟩,
   ⟨0xBC, 3, 4, true, .ldyAbsX w, .mem (.absX w)⟩]

/-- The encoding table of R121 (ASL). -/
def aslRows (bb : Byte) (w : Word) : List (TableRow Target) :=
  [⟨0x0A, 1, 2, false, .aslAcc, .acc⟩, ⟨0x06, 2, 5, false, .aslZpg bb, .mem (.zpg bb)⟩,
   ⟨0x16, 2, 6, false, .aslZpgX bb, .mem (.zpgX bb)⟩, ⟨0x0E, 3, 6, false, .aslAbs w, .mem (.abs w)⟩,
   ⟨0x1E, 3, 7, false, .aslAbsX w, .mem (.absX w)⟩]

/-- The encoding table of R124 (LSR). -/
def lsrRows (bb : Byte) (w : Word) : List (TableRow Target) :=
  [⟨0x4A, 1, 2, false, .lsrAcc, .acc⟩, ⟨0x46, 2, 5, false, .lsrZpg bb, .mem (.zpg bb)⟩,
   ⟨0x56, 2, 6, false, .lsrZpgX bb, .mem (.zpgX bb)⟩, ⟨0x4E, 3, 6, false, .lsrAbs w, .mem (.abs w)⟩,
   ⟨0x5E, 3, 7, false, .lsrAbsX w, .mem (.absX w)⟩]

/-- The encoding table of R126 (ROL). -/
def rolRows (bb : Byte) (w : Word) : List (TableRow Target) :=
  [⟨0x2A, 1, 2, false, .rolAcc, .acc⟩, ⟨0x26, 2, 5, false, .rolZpg bb, .mem (.zpg bb)⟩,
   ⟨0x36, 2, 6, false, .rolZpgX bb, .mem (.zpgX bb)⟩, ⟨0x2E, 3, 6, false, .rolAbs w, .mem (.abs w)⟩,
   ⟨0x3E, 3, 7, false, .rolAbsX w, .mem (.absX w)⟩]

/-- The encoding table of R127 (ROR). -/
def rorRows (bb : Byte) (w : Word) : List (TableRow Target) :=
  [⟨0x6A, 1, 2, false, .rorAcc, .acc⟩, ⟨0x66, 2, 5, false, .rorZpg bb, .mem (.zpg bb)⟩,
   ⟨0x76, 2, 6, false, .rorZpgX bb, .mem (.zpgX bb)⟩, ⟨0x6E, 3, 6, false, .rorAbs w, .mem (.abs w)⟩,
   ⟨0x7E, 3, 7, false, .rorAbsX w, .mem (.absX w)⟩]

/-- The encoding table of R107 (INC). -/
def incRows (bb : Byte) (w : Word) : List (TableRow Addr) :=
  [⟨0xE6, 2, 5, false, .incZpg bb, .zpg bb⟩, ⟨0xF6, 2, 6, false, .incZpgX bb, .zpgX bb⟩,
   ⟨0xEE, 3, 6, false, .incAbs w, .abs w⟩, ⟨0xFE, 3, 7, false, .incAbsX w, .absX w⟩]

/-- The encoding table of R104 (DEC). -/
def decRows (bb : Byte) (w : Word) : List (TableRow Addr) :=
  [⟨0xC6, 2, 5, false, .decZpg bb, .zpg bb⟩, ⟨0xD6, 2, 6, false, .decZpgX bb, .zpgX bb⟩,
   ⟨0xCE, 3, 6, false, .decAbs w, .abs w⟩, ⟨0xDE, 3, 7, false, .decAbsX w, .absX w⟩]

/-- The encoding table of R183 (STA). -/
def staRows (bb : Byte) (w : Word) : List (TableRow Addr) :=
  [⟨0x85, 2, 3, false, .staZpg bb, .zpg bb⟩, ⟨0x95, 2, 4, false, .staZpgX bb, .zpgX bb⟩,
   ⟨0x8D, 3, 4, false, .staAbs w, .abs w⟩, ⟨0x9D, 3, 5, false, .staAbsX w, .absX w⟩,
   ⟨0x99, 3, 5, false, .staAbsY w, .absY w⟩, ⟨0x81, 2, 6, false, .staXInd bb, .xInd bb⟩,
   ⟨0x91, 2, 6, false, .staIndY bb, .indY bb⟩]

/-- The encoding table of R184 (STX). -/
def stxRows (bb : Byte) (w : Word) : List (TableRow Addr) :=
  [⟨0x86, 2, 3, false, .stxZpg bb, .zpg bb⟩, ⟨0x96, 2, 4, false, .stxZpgY bb, .zpgY bb⟩,
   ⟨0x8E, 3, 4, false, .stxAbs w, .abs w⟩]

/-- The encoding table of R185 (STY). -/
def styRows (bb : Byte) (w : Word) : List (TableRow Addr) :=
  [⟨0x84, 2, 3, false, .styZpg bb, .zpg bb⟩, ⟨0x94, 2, 4, false, .styZpgX bb, .zpgX bb⟩,
   ⟨0x8C, 3, 4, false, .styAbs w, .abs w⟩]
/-! ### Words shared by the statements -/

/-- `exec` answers a next state of which `p` holds. -/
def Completes (i : Instr) (s : State) (p : State → Prop) : Prop := ∃ t, exec i s = .next t ∧ p t

/-- PC is past an instruction of `bytes` bytes (10_state.md R25). -/
def PastIt (bytes : Nat) (s t : State) : Prop := t.pc = s.pc + BitVec.ofNat 16 bytes

/-- N and Z show the result `r` (R28): N is its bit 7, Z whether it is zero. -/
def ShowsNZ (t : State) (r : Byte) : Prop := t.flags.n = r.getLsbD 7 ∧ (t.flags.z = true ↔ r.toNat = 0)

/-- The operand value M of a reading instruction (30_encoding.md R78). -/
def operandM (src : Source) (s : State) : Byte := (sourceValue src s).1

/-- The operand value M of a read-modify-write (R78): A, or the byte at the effective address. -/
def targetM (tg : Target) (s : State) : Byte :=
  match tg with
  | .acc => s.a
  | .mem m => ((addrEA m s).2.load (addrEA m s).1).1

/-- "Write the result r to the operand" (R78), and nothing else but the flags named. -/
def WritesTarget (tg : Target) (flags : List Part) (s t : State) (r : Byte) : Prop :=
  match tg with
  | .acc => t.a = r ∧ KeepsAllBut (.a :: flags) s t
  | .mem m => StoredOnly s t (addrEA m s).1 r ∧ KeepsAllBut (.mem :: flags) s t

/-- The bytes of memory after two pushes of the word `w` (20_memory.md R59): the high byte at `$0100 + SP`, the low byte at
`$0100 + SP - 1`, in page 1; every other byte as before. That an address that is not RAM keeps its byte is the model's choice
(log 7). -/
def PushedWord (s t : State) (w : Word) : Prop :=
  ∀ b : Word, t.mem.read b =
    if b = stackAddr s.sp ∧ s.kindAt b = .ram then hiByte w
    else if b = stackAddr (s.sp - 1) ∧ s.kindAt b = .ram then loByte w
    else s.mem.read b

/-- The bytes of memory after the three pushes of an exception entry (60_exceptions.md R213): the return address, high byte
first, then SR with bit 4 = `brkBit`; every other byte as before. That an address that is not RAM keeps its byte is the model's
choice (log 7). -/
def PushedEntry (s t : State) (ret : Word) (brkBit : Bool) : Prop :=
  ∀ b : Word, t.mem.read b =
    if b = stackAddr s.sp ∧ s.kindAt b = .ram then hiByte ret
    else if b = stackAddr (s.sp - 1) ∧ s.kindAt b = .ram then loByte ret
    else if b = stackAddr (s.sp - 2) ∧ s.kindAt b = .ram then s.flags.toByte brkBit
    else s.mem.read b

/-- An exception entry (R213, R214): the three pushes, SP less 3, I set, PC the word at the vector, read in memory as the pushes
left it, all else as before but `also`. -/
def Entered (s t : State) (ret : Word) (brkBit : Bool) (vector : Word) (also : List Part) : Prop :=
  PushedEntry s t ret brkBit ∧ t.sp = s.sp - 3 ∧ t.flags.i = true ∧ t.pc = ((s.withMem t.mem).loadWord vector).1 ∧
    KeepsAllBut (.sp :: .i :: .mem :: also) s t

/-- The 105 illegal opcode bytes, as 30_encoding.md R82 lists them. -/
def illegalBytes : List Byte :=
  [0x02, 0x03, 0x04, 0x07, 0x0B, 0x0C, 0x0F,
   0x12, 0x13, 0x14, 0x17, 0x1A, 0x1B, 0x1C, 0x1F] ++
  [0x22, 0x23, 0x27, 0x2B, 0x2F,
   0x32, 0x33, 0x34, 0x37, 0x3A, 0x3B, 0x3C, 0x3F] ++
  [0x42, 0x43, 0x44, 0x47, 0x4B, 0x4F,
   0x52, 0x53, 0x54, 0x57, 0x5A, 0x5B, 0x5C, 0x5F] ++
  [0x62, 0x63, 0x64, 0x67, 0x6B, 0x6F,
   0x72, 0x73, 0x74, 0x77, 0x7A, 0x7B, 0x7C, 0x7F] ++
  [0x80, 0x82, 0x83, 0x87, 0x89, 0x8B, 0x8F,
   0x92, 0x93, 0x97, 0x9B, 0x9C, 0x9E, 0x9F] ++
  [0xA3, 0xA7, 0xAB, 0xAF, 0xB2, 0xB3, 0xB7, 0xBB, 0xBF,
   0xC2, 0xC3, 0xC7, 0xCB, 0xCF] ++
  [0xD2, 0xD3, 0xD4, 0xD7, 0xDA, 0xDB, 0xDC, 0xDF,
   0xE2, 0xE3, 0xE7, 0xEB, 0xEF] ++
  [0xF2, 0xF3, 0xF4, 0xF7, 0xFA, 0xFB, 0xFC, 0xFF]

/-- A conditional branch of R141 to R148: opcode, instruction, whether its condition holds. -/
def branchRows (bb : Byte) (f : Flags) : List (Byte × Instr × Bool) :=
  [(0x90, .bcc bb, !f.c), (0xB0, .bcs bb, f.c), (0xF0, .beq bb, f.z), (0x30, .bmi bb, f.n),
   (0xD0, .bne bb, !f.z), (0x10, .bpl bb, !f.n), (0x50, .bvc bb, !f.v), (0x70, .bvs bb, f.v)]

/-- Some single event reaches the boundary: what the environment gives the coming step. -/
def nowInputs (s : State) : Inputs := s.sample.1

/-- The state at the boundary: other agents' stores made, an NMI edge latched, the record of inputs used up. -/
def atBoundary (s : State) : State := s.sample.2

/-- The invariant of the machine: memory has its one canonical form. -/
def Canonical (s : State) : Prop := s.mem.wf = true

/-- Ten times the high nibble plus the low one, where both are at most 9 (40_arithmetic.md R111). -/
def BcdValue (v : Byte) (k : Nat) : Prop :=
  v.toNat / 16 ≤ 9 ∧ v.toNat % 16 ≤ 9 ∧ k = 10 * (v.toNat / 16) + v.toNat % 16

end Sys2Proof.Claims

open Sys2Proof Sys2Proof.Machine Sys2Proof.Claims

/-! ### Encoding -/

/-- A few words of each format, written out bit by bit from the encodings of spec/opcode_table.json, decode to the instruction
they stand for. -/
def Obligations.WrittenWordsDecode : Prop :=
  ∀ (b1 b2 : Byte) (rest : List Byte),
    decode (0b00000000 :: rest) = .ok (.brk, rest) ∧
    decode (0b11101010 :: rest) = .ok (.nop, rest) ∧
    decode (0b00001010 :: rest) = .ok (.aslAcc, rest) ∧
    decode (0b01101001 :: b1 :: rest) = .ok (.adcImm b1, rest) ∧
    decode (0b10000101 :: b1 :: rest) = .ok (.staZpg b1, rest) ∧
    decode (0b10110001 :: b1 :: rest) = .ok (.ldaIndY b1, rest) ∧
    decode (0b11010000 :: b1 :: rest) = .ok (.bne b1, rest) ∧
    decode (0b00100000 :: b1 :: b2 :: rest) = .ok (.jsr (wordOf b2 b1), rest) ∧
    decode (0b01101100 :: b1 :: b2 :: rest) = .ok (.jmpInd (wordOf b2 b1), rest) ∧
    decode (0b10011101 :: b1 :: b2 :: rest) = .ok (.staAbsX (wordOf b2 b1), rest) ∧
    (wordOf b2 b1).toNat = b2.toNat * 256 + b1.toNat

/-- Decoding the encoding of an instruction gives it back, whatever bytes follow: no bit of any operand is dropped. Every
instruction is well formed (R83). -/
def Obligations.DecodeEncodeRoundTrip : Prop :=
  ∀ (i : Instr) (rest : List Byte), i.wellFormed = true ∧ decode (encode i ++ rest) = .ok (i, rest)

/-- Decoding reads nothing but an encoding: bytes that decode to an instruction begin with its encoding. -/
def Obligations.DecodedBytesAreItsEncoding : Prop :=
  ∀ (bs rest : List Byte) (i : Instr), decode bs = .ok (i, rest) → bs = encode i ++ rest

/-- Three bytes decode exactly when the first is none of the 105 bytes R82 lists; those are refused by name. -/
def Obligations.IllegalBytesAreTheListed105 : Prop :=
  illegalBytes.length = 105 ∧
  ∀ opc b1 b2 : Byte,
    (opc ∈ illegalBytes → decode [opc, b1, b2] = .error (.illegalOpcode opc)) ∧
    (opc ∉ illegalBytes → ∃ r, decode [opc, b1, b2] = .ok r)

/-- The combinations of a mnemonic and a mode that exist are exactly those of the instructions. -/
def Obligations.FormsThatExist : Prop :=
  ∀ (m : Mnemonic) (md : Mode), formExists m md = true ↔ ∃ i : Instr, i.mnemonic = m ∧ i.mode = md

/-! ### The step, events at a boundary, reset -/

/-- Where no event is taken and the bytes at PC are plain memory and decode to an instruction, the step is that instruction's
execution from the state at the boundary. -/
def Obligations.StepRunsDecodedInstruction : Prop :=
  ∀ (s : State) (i : Instr) (rest : List Byte),
    (atBoundary s).event (nowInputs s) = .instruction →
    (∀ k : Nat, k < i.bytes → (atBoundary s).plainAt (s.pc + BitVec.ofNat 16 k) = true) →
    decode [(atBoundary s).mem.read s.pc, (atBoundary s).mem.read (s.pc + 1), (atBoundary s).mem.read (s.pc + 2)]
      = .ok (i, rest) →
    step s = exec i (atBoundary s)

/-- An illegal opcode byte at PC, in plain memory, stops the step with the model's fault; nothing else does, and no step is
refused. -/
def Obligations.OnlyIllegalOpcodesStop : Prop :=
  (∀ s : State, (atBoundary s).event (nowInputs s) = .instruction → (atBoundary s).plainAt s.pc = true →
    (atBoundary s).mem.read s.pc ∈ illegalBytes →
    step s = .fault (.illegalOpcode ((atBoundary s).mem.read s.pc))) ∧
  (∀ (s : State) (f : Fault), step s = .fault f →
    (atBoundary s).event (nowInputs s) = .instruction ∧ ∃ opc ∈ illegalBytes, f = .illegalOpcode opc) ∧
  (∀ (s : State) (r : Refusal), step s ≠ .refused r)

/-- The event taken at a boundary: RESET, else NMI, else IRQ where I = 0, else the next instruction. -/
def Obligations.OneEventInOrder : Prop :=
  ∀ (s : State) (now : Inputs),
    (now.res = true → s.event now = .reset) ∧
    (now.res = false → s.nmiPending = true → s.event now = .nmi) ∧
    (now.res = false → s.nmiPending = false → now.irq = true → s.flags.i = false → s.event now = .irq) ∧
    (now.res = false → s.nmiPending = false → (now.irq = false ∨ s.flags.i = true) → s.event now = .instruction)

/-- An IRQ is taken where the line is asserted, I = 0 and neither a reset nor an NMI is taken: the entry sequence, 7 cycles,
through `VEC_IRQ` with PC as return address and bit 4 = 0. With I = 1 an instruction is executed instead. That a push to an
address that is not RAM changes no byte is the model's choice (log 7), and so is the form of the inputs (log 8). -/
def Obligations.IrqEntry : Prop :=
  ∀ s : State, (nowInputs s).res = false → (atBoundary s).nmiPending = false → (nowInputs s).irq = true →
    ((atBoundary s).flags.i = false →
      stepCycles s = some 7 ∧ ∃ t, step s = .next t ∧ Entered (atBoundary s) t s.pc false s.vectors.irq []) ∧
    ((atBoundary s).flags.i = true → (atBoundary s).event (nowInputs s) = .instruction)

/-- An NMI edge is latched, merging with one already pending, and a pending NMI is taken where no reset is, whatever I is: the
latch is cleared and the entry sequence through `VEC_NMI` run. That the inputs are records, each used up and its edge latched
before the events of its step are tested, is the model's choice (log 8), and so is that a push to an address that is not RAM
changes no byte (log 7). -/
def Obligations.NmiLatchAndEntry : Prop :=
  (∀ (s : State) (now : Inputs) (rest : List Inputs), s.inputs = now :: rest →
    nowInputs s = now ∧ (atBoundary s).inputs = rest ∧
      (atBoundary s).nmiPending = (s.nmiPending || now.nmiEdge)) ∧
  (∀ s : State, (nowInputs s).res = false → (atBoundary s).nmiPending = true →
    stepCycles s = some 7 ∧
      ∃ t, step s = .next t ∧ Entered (atBoundary s) t s.pc false s.vectors.nmi [.nmi] ∧ t.nmiPending = false)

/-- A reset is taken before anything else: I is set, the NMI latch cleared, PC loaded from `VEC_RES`; nothing is pushed and no
byte of memory changes. A, X, Y, SP and the other flags are free and nothing is said of them. -/
def Obligations.ResetSequence : Prop :=
  ∀ s : State, (nowInputs s).res = true →
    stepCycles s = some 7 ∧ ∃ t, step s = .next t ∧ t.flags.i = true ∧ t.nmiPending = false ∧
      t.pc = ((atBoundary s).loadWord s.vectors.res).1 ∧
      KeepsAllBut [.a, .x, .y, .sp, .n, .v, .d, .i, .z, .c, .nmi] (atBoundary s) t

/-- The state after reset: I = 1, no NMI pending, PC the word at `VEC_RES` of its memory. That its memory lists nothing, and so
reads as $00, is the model's choice (log 1); the vectors' addresses are the defaults, held in the state (log 6). -/
def Obligations.StateAfterReset : Prop :=
  State.reset.flags.i = true ∧ State.reset.nmiPending = false ∧
    State.reset.pc = wordOf (State.reset.mem.read (State.reset.vectors.res + 1)) (State.reset.mem.read State.reset.vectors.res) ∧
    State.reset.vectors = ⟨0xFFFA, 0xFFFC, 0xFFFE⟩ ∧ Canonical State.reset

/-- Every step keeps memory's canonical form, from every state that has it: one content of memory is one list. -/
def Obligations.StepKeepsMemoryCanonical : Prop :=
  ∀ s t : State, Canonical s → step s = .next t → Canonical t

/-- In the canonical form, memories that read the same at every address are equal. -/
def Obligations.CanonicalMemoryIsUnique : Prop :=
  ∀ m k : Memory, m.wf = true → k.wf = true → (∀ b : Word, m.read b = k.read b) → m = k

/-- No step changes the platform's map, the vectors' addresses or a byte of ROM, but for other agents' stores before it; the
inputs are used up one record at a step; the count of free values never falls. What a write to ROM does is the model's choice
(log 7), and so are the form of the inputs (log 8) and that the state holds the vectors' addresses (log 6). -/
def Obligations.StepKeepsPlatformAndRom : Prop :=
  ∀ s t : State, step s = .next t →
    t.platform = s.platform ∧ t.vectors = s.vectors ∧ t.inputs = s.inputs.tail ∧ s.draws ≤ t.draws ∧
      ∀ b : Word, s.kindAt b = .rom → t.mem.read b = (atBoundary s).mem.read b

/-- A JMP to its own address in plain memory, with no input to come and no NMI pending, is a step that changes nothing: the
convention (b) for the end of a run. -/
def Obligations.JumpToSelfIsFixedPoint : Prop :=
  ∀ s : State, s.inputs = [] → s.nmiPending = false → s.plainAt s.pc = true →
    EndOfRun.jumpToSelf.reached s = true →
    s.plainAt (s.pc + 1) = true → s.plainAt (s.pc + 2) = true → step s = .next s

/-! ### Memory, the stack, SR as a byte -/

/-- The memory primitives: a read of plain memory gives the byte held and changes nothing; a write to RAM replaces that byte and
no other, and is what a later read gives. They answer for every address, so neither can fault. -/
def Obligations.MemReadMemWrite : Prop :=
  ∀ (s : State) (a : Word) (v : Byte),
    (s.plainAt a = true → s.load a = (s.mem.read a, s)) ∧
    (s.kindAt a = .ram → (s.store a v).load a = (v, s.store a v)) ∧
    (s.kindAt a = .ram → ∀ b : Word, b ≠ a → (s.store a v).mem.read b = s.mem.read b) ∧
    (∀ b : Word, (s.store a v).kindAt b = s.kindAt b) ∧
    KeepsAllBut [.mem] s (s.store a v) ∧ (s.store a v).pc = s.pc

/-- An address that is no plain memory: a read gives the next free byte, a fresh one each time, and changes no register, flag
or byte; a write changes nothing. That a write has no effect is the model's choice where the spec promises none (log 7). -/
def Obligations.ExternalAddresses : Prop :=
  ∀ (s : State) (a : Word) (v : Byte), s.kindAt a = .external →
    s.load a = (Config.freeByte s.draws, { s with draws := s.draws + 1 }) ∧ s.store a v = s

/-- The stack primitives on bytes: SP names the next free byte of page 1; push stores there and then decrements SP, pull
increments and then reads; SP wraps modulo 256. That a push to an address that is not RAM changes no byte is the model's choice
(log 7). -/
def Obligations.PushAndPullByte : Prop :=
  (∀ sp : Byte, (stackAddr sp).toNat = 0x0100 + sp.toNat) ∧
  ∀ (s : State) (v : Byte),
    ((s.push8 v).sp.toNat = (s.sp.toNat + 255) % 256 ∧ StoredOnly s (s.push8 v) (stackAddr s.sp) v ∧
      KeepsAllBut [.sp, .mem] s (s.push8 v) ∧ (s.push8 v).pc = s.pc) ∧
    (s.pull8.2.sp.toNat = (s.sp.toNat + 1) % 256 ∧ s.pull8.1 = (s.load (stackAddr (s.sp + 1))).1 ∧
      KeepsAllBut [.sp] s s.pull8.2 ∧ s.pull8.2.pc = s.pc)

/-- The stack primitives on words: pushed high byte first, pulled low byte first, so that a pushed word lies low byte at the
lower address; a pull after a push in RAM gives the word back and SP as it was. That a push to an address that is not RAM changes
no byte is the model's choice (log 7). -/
def Obligations.PushAndPullWord : Prop :=
  (∀ (s : State) (w : Word), PushedWord s (s.push16 w) w ∧ (s.push16 w).sp = s.sp - 2 ∧
    KeepsAllBut [.sp, .mem] s (s.push16 w)) ∧
  (∀ s : State, s.pull16.2.sp = s.sp + 2 ∧ KeepsAllBut [.sp] s s.pull16.2 ∧
    s.pull16.1 = wordOf ((s.load (stackAddr (s.sp + 1))).2.load (stackAddr (s.sp + 2))).1
      (s.load (stackAddr (s.sp + 1))).1) ∧
  (∀ (s : State) (w : Word), s.stackIsRam → (s.push16 w).pull16.1 = w ∧ (s.push16 w).pull16.2.sp = s.sp)

/-- The status register as a byte: bit positions, bit 5 = 1, bit 4 as given; loading from a byte takes bits 7, 6, 3, 2, 1, 0 and
discards bits 5 and 4, so loading what was stored gives the six flags back. -/
def Obligations.StatusByte : Prop :=
  ∀ (f : Flags) (b : Bool) (p : Byte),
    (f.toByte b).toNat = 128 * f.n.toNat + 64 * f.v.toNat + 32 + 16 * b.toNat + 8 * f.d.toNat + 4 * f.i.toNat
      + 2 * f.z.toNat + f.c.toNat ∧
    Flags.ofByte (f.toByte b) = f ∧
    Flags.ofByte p = ⟨p.getLsbD 7, p.getLsbD 6, p.getLsbD 3, p.getLsbD 2, p.getLsbD 1, p.getLsbD 0⟩ ∧
    (Flags.ofByte p).toByte b = (p &&& 0b11001111) ||| (if b then 0b00110000 else 0b00100000)

/-! ### Address modes -/

/-- The effective addresses of the modes that make no access: absolute and indexed by a 16-bit sum that wraps at 65536, zero
page and indexed inside page 0. -/
def Obligations.DirectEffectiveAddresses : Prop :=
  ∀ (s : State) (ll : Byte) (w : Word),
    addrEA (.abs w) s = (w, s) ∧
    ((addrEA (.absX w) s).1.toNat = (w.toNat + s.x.toNat) % 65536 ∧ (addrEA (.absX w) s).2 = s) ∧
    ((addrEA (.absY w) s).1.toNat = (w.toNat + s.y.toNat) % 65536 ∧ (addrEA (.absY w) s).2 = s) ∧
    ((addrEA (.zpg ll) s).1.toNat = ll.toNat ∧ (addrEA (.zpg ll) s).2 = s) ∧
    ((addrEA (.zpgX ll) s).1.toNat = (ll.toNat + s.x.toNat) % 256 ∧ (addrEA (.zpgX ll) s).2 = s) ∧
    ((addrEA (.zpgY ll) s).1.toNat = (ll.toNat + s.y.toNat) % 256 ∧ (addrEA (.zpgY ll) s).2 = s)

/-- The effective addresses of the two indirect modes, over plain memory in page 0: both bytes of the pointer lie in page 0, the
low byte first. Over any memory the mode changes nothing but the count of free values. -/
def Obligations.IndirectEffectiveAddresses : Prop :=
  ∀ (s : State) (bb : Byte),
    ((∀ z : Byte, s.plainAt (zext16 z) = true) →
      (∃ zp : Byte, zp.toNat = (bb.toNat + s.x.toNat) % 256 ∧
        (addrEA (.xInd bb) s).1.toNat = (s.mem.read (zext16 zp)).toNat + 256 * (s.mem.read (zext16 (zp + 1))).toNat) ∧
      (addrEA (.indY bb) s).1.toNat =
        ((s.mem.read (zext16 bb)).toNat + 256 * (s.mem.read (zext16 (bb + 1))).toNat + s.y.toNat) % 65536) ∧
    (∀ m : Addr, KeepsAllBut [] s (addrEA m s).2 ∧ (addrEA m s).2.pc = s.pc)

/-! ### Arithmetic -/

/-- ADC with D = 0, in its eight forms: the 9-bit sum `A + M + C`, its carry, signed overflow, N and Z; nothing else. -/
def Obligations.AdcBinary : Prop :=
  ∀ (bb : Byte) (w : Word) (s : State), s.flags.d = false → ∀ r ∈ adcRows bb w, r.printed ∧
    Completes r.instr s fun t =>
      let m := operandM r.operand s
      let sum := s.a.toNat + m.toNat + s.flags.c.toNat
      t.a.toNat = sum % 256 ∧ (t.flags.c = true ↔ 255 < sum) ∧
        (t.flags.v = true ↔ s.a.msb = m.msb ∧ t.a.msb ≠ s.a.msb) ∧ ShowsNZ t t.a ∧
        KeepsAllBut [.a, .n, .v, .z, .c] s t ∧ PastIt r.bytes s t

/-- ADC with D = 1, in its eight forms: for valid BCD operands A and C are the two-digit decimal sum; N, V, Z (and for other
operands A and C too) are free, and nothing else is written. -/
def Obligations.AdcDecimal : Prop :=
  ∀ (bb : Byte) (w : Word) (s : State), s.flags.d = true → ∀ r ∈ adcRows bb w,
    Completes r.instr s fun t =>
      let m := operandM r.operand s
      (∀ ja jm : Nat, BcdValue s.a ja → BcdValue m jm →
        BcdValue t.a ((ja + jm + s.flags.c.toNat) % 100) ∧ (t.flags.c = true ↔ 99 < ja + jm + s.flags.c.toNat)) ∧
      KeepsAllBut [.a, .n, .v, .z, .c] s t ∧ PastIt r.bytes s t

/-- SBC with D = 0, in its eight forms: `A - M - (1 - C)`, C = 1 exactly when there is no borrow, signed overflow, N and Z. -/
def Obligations.SbcBinary : Prop :=
  ∀ (bb : Byte) (w : Word) (s : State), s.flags.d = false → ∀ r ∈ sbcRows bb w, r.printed ∧
    Completes r.instr s fun t =>
      let m := operandM r.operand s
      let diff : Int := s.a.toNat - m.toNat - (1 - s.flags.c.toNat)
      (t.a.toNat : Int) = diff % 256 ∧ (t.flags.c = true ↔ 0 ≤ diff) ∧
        (t.flags.v = true ↔ s.a.msb ≠ m.msb ∧ t.a.msb ≠ s.a.msb) ∧ ShowsNZ t t.a ∧
        KeepsAllBut [.a, .n, .v, .z, .c] s t ∧ PastIt r.bytes s t

/-- SBC with D = 1, in its eight forms: for valid BCD operands A and C are the two-digit decimal difference and its borrow; N,
V, Z (and for other operands A and C too) are free, and nothing else is written. -/
def Obligations.SbcDecimal : Prop :=
  ∀ (bb : Byte) (w : Word) (s : State), s.flags.d = true → ∀ r ∈ sbcRows bb w,
    Completes r.instr s fun t =>
      let m := operandM r.operand s
      (∀ ja jm : Nat, BcdValue s.a ja → BcdValue m jm →
        let diff : Int := ja - jm - (1 - s.flags.c.toNat)
        (∃ k : Nat, BcdValue t.a k ∧ (k : Int) = diff % 100) ∧ (t.flags.c = true ↔ 0 ≤ diff)) ∧
      KeepsAllBut [.a, .n, .v, .z, .c] s t ∧ PastIt r.bytes s t

/-- After a binary ADC or SBC, V is set exactly when the exact result on two's complement operands is outside -128..127. -/
def Obligations.OverflowIsSignedOverflow : Prop :=
  ∀ (bb : Byte) (w : Word) (s : State), s.flags.d = false →
    (∀ r ∈ adcRows bb w, Completes r.instr s fun t =>
      let exact : Int := s.a.toInt + (operandM r.operand s).toInt + s.flags.c.toNat
      (t.flags.v = true ↔ exact < -128 ∨ 127 < exact)) ∧
    (∀ r ∈ sbcRows bb w, Completes r.instr s fun t =>
      let exact : Int := s.a.toInt - (operandM r.operand s).toInt - (1 - s.flags.c.toNat)
      (t.flags.v = true ↔ exact < -128 ∨ 127 < exact))

/-- Binary SBC of M is binary ADC of the one's complement of M: the same next state. -/
def Obligations.SbcIsAdcOfComplement : Prop :=
  ∀ (s : State) (bb : Byte), s.flags.d = false → ∃ t, exec (.sbcImm bb) s = .next t ∧ exec (.adcImm (~~~bb)) s = .next t

/-- Two ADCs chain through C into a 16-bit addition, two SBCs into a 16-bit subtraction: whatever is loaded into A between. -/
def Obligations.CarryChainsTwoBytes : Prop :=
  ∀ (s : State) (ah ml mh : Byte), s.flags.d = false →
    (∃ t u, exec (.adcImm ml) s = .next t ∧ exec (.adcImm mh) { t with a := ah } = .next u ∧
      65536 * u.flags.c.toNat + 256 * u.a.toNat + t.a.toNat =
        (256 * ah.toNat + s.a.toNat) + (256 * mh.toNat + ml.toNat) + s.flags.c.toNat) ∧
    (∃ t u, exec (.sbcImm ml) s = .next t ∧ exec (.sbcImm mh) { t with a := ah } = .next u ∧
      (256 * u.a.toNat + t.a.toNat : Int) - 65536 * (1 - u.flags.c.toNat) =
        (256 * ah.toNat + s.a.toNat) - (256 * mh.toNat + ml.toNat) - (1 - s.flags.c.toNat))

/-- CMP, CPX, CPY, in all their forms and whatever D is: the 8-bit difference goes to N and Z, C says register >= M unsigned;
nothing else is written. -/
def Obligations.CompareResults : Prop :=
  ∀ (bb : Byte) (w : Word) (s : State),
    ∀ g ∈ [(s.a, cmpRows bb w), (s.x, cpxRows bb w), (s.y, cpyRows bb w)], ∀ r ∈ g.2, r.printed ∧
      Completes r.instr s fun t =>
        let m := operandM r.operand s
        (t.flags.c = true ↔ m.toNat ≤ g.1.toNat) ∧
          ShowsNZ t (BitVec.ofInt 8 (g.1.toNat - m.toNat)) ∧ (t.flags.z = true ↔ g.1 = m) ∧
          KeepsAllBut [.n, .z, .c] s t ∧ PastIt r.bytes s t

/-- INC and DEC, in their four forms each: the byte at the effective address becomes itself plus or minus 1 modulo 256, N and Z
show it; C and V and every other byte are unchanged. That no byte changes where the address is not RAM is the model's choice
(log 7). -/
def Obligations.IncDecMemory : Prop :=
  ∀ (bb : Byte) (w : Word) (s : State),
    ∀ g ∈ [(1, incRows bb w), (255, decRows bb w)], ∀ r ∈ g.2, r.printed ∧
      Completes r.instr s fun t =>
        let result := BitVec.ofNat 8 ((targetM (.mem r.operand) s).toNat + g.1)
        StoredOnly s t (addrEA r.operand s).1 result ∧ ShowsNZ t result ∧
          KeepsAllBut [.mem, .n, .z] s t ∧ PastIt r.bytes s t

/-- INX, INY, DEX, DEY: the register plus or minus 1 modulo 256, N and Z; nothing else. -/
def Obligations.IncDecRegisters : Prop :=
  (Implied 0xE8 2 .inx ∧ Implied 0xC8 2 .iny ∧ Implied 0xCA 2 .dex ∧ Implied 0x88 2 .dey) ∧
  ∀ s : State,
    Completes .inx s (fun t => t.x.toNat = (s.x.toNat + 1) % 256 ∧ ShowsNZ t t.x ∧
      KeepsAllBut [.x, .n, .z] s t ∧ PastIt 1 s t) ∧
    Completes .iny s (fun t => t.y.toNat = (s.y.toNat + 1) % 256 ∧ ShowsNZ t t.y ∧
      KeepsAllBut [.y, .n, .z] s t ∧ PastIt 1 s t) ∧
    Completes .dex s (fun t => t.x.toNat = (s.x.toNat + 255) % 256 ∧ ShowsNZ t t.x ∧
      KeepsAllBut [.x, .n, .z] s t ∧ PastIt 1 s t) ∧
    Completes .dey s (fun t => t.y.toNat = (s.y.toNat + 255) % 256 ∧ ShowsNZ t t.y ∧
      KeepsAllBut [.y, .n, .z] s t ∧ PastIt 1 s t)

/-! ### Logic, bit test, shifts -/

/-- AND, EOR, ORA, in their eight forms each: A becomes the bitwise result, bit by bit, N and Z show it; nothing else. -/
def Obligations.LogicResults : Prop :=
  ∀ (bb : Byte) (w : Word) (s : State),
    (∀ r ∈ andRows bb w, r.printed ∧ Completes r.instr s fun t =>
      (∀ k < 8, t.a.getLsbD k = (s.a.getLsbD k && (operandM r.operand s).getLsbD k)) ∧ ShowsNZ t t.a ∧
        KeepsAllBut [.a, .n, .z] s t ∧ PastIt r.bytes s t) ∧
    (∀ r ∈ eorRows bb w, r.printed ∧ Completes r.instr s fun t =>
      (∀ k < 8, t.a.getLsbD k = (s.a.getLsbD k != (operandM r.operand s).getLsbD k)) ∧ ShowsNZ t t.a ∧
        KeepsAllBut [.a, .n, .z] s t ∧ PastIt r.bytes s t) ∧
    (∀ r ∈ oraRows bb w, r.printed ∧ Completes r.instr s fun t =>
      (∀ k < 8, t.a.getLsbD k = (s.a.getLsbD k || (operandM r.operand s).getLsbD k)) ∧ ShowsNZ t t.a ∧
        KeepsAllBut [.a, .n, .z] s t ∧ PastIt r.bytes s t)

/-- BIT, in its two forms: N and V are bits 7 and 6 of the memory byte, Z whether `A & M` is zero; nothing else is written. -/
def Obligations.BitTest : Prop :=
  ∀ (bb : Byte) (w : Word) (s : State), ∀ r ∈ bitRows bb w, r.printed ∧
    Completes r.instr s fun t =>
      let m := operandM r.operand s
      t.flags.n = m.getLsbD 7 ∧ t.flags.v = m.getLsbD 6 ∧
        (t.flags.z = true ↔ ∀ k < 8, (s.a.getLsbD k && m.getLsbD k) = false) ∧
        KeepsAllBut [.n, .v, .z] s t ∧ PastIt r.bytes s t

/-- ASL, ROL, ROR, in their five forms each, on A and on memory: each bit moves one place, the bit that leaves goes to C, what
enters is 0 or the old C; N and Z show the result; nothing else is written. That no byte changes where the address of a memory
form is not RAM is the model's choice (log 7). -/
def Obligations.ShiftAndRotateResults : Prop :=
  ∀ (bb : Byte) (w : Word) (s : State),
    (∀ r ∈ aslRows bb w, r.printed ∧ Completes r.instr s fun t => ∃ v : Byte,
      WritesTarget r.operand [.c, .z, .n] s t v ∧ ShowsNZ t v ∧
        t.flags.c = (targetM r.operand s).getLsbD 7 ∧ v.getLsbD 0 = false ∧
        (∀ k < 7, v.getLsbD (k + 1) = (targetM r.operand s).getLsbD k) ∧ PastIt r.bytes s t) ∧
    (∀ r ∈ rolRows bb w, r.printed ∧ Completes r.instr s fun t => ∃ v : Byte,
      WritesTarget r.operand [.c, .z, .n] s t v ∧ ShowsNZ t v ∧
        t.flags.c = (targetM r.operand s).getLsbD 7 ∧ v.getLsbD 0 = s.flags.c ∧
        (∀ k < 7, v.getLsbD (k + 1) = (targetM r.operand s).getLsbD k) ∧ PastIt r.bytes s t) ∧
    (∀ r ∈ rorRows bb w, r.printed ∧ Completes r.instr s fun t => ∃ v : Byte,
      WritesTarget r.operand [.c, .z, .n] s t v ∧ ShowsNZ t v ∧
        t.flags.c = (targetM r.operand s).getLsbD 0 ∧ v.getLsbD 7 = s.flags.c ∧
        (∀ k < 7, v.getLsbD k = (targetM r.operand s).getLsbD (k + 1)) ∧ PastIt r.bytes s t)

/-- LSR, in its five forms: bit 0 goes to C, 0 enters bit 7, Z shows the result, N follows the open parameter `LSR_N` (log 4).
That no byte changes where the address of a memory form is not RAM is the model's choice (log 7). -/
def Obligations.LsrResults : Prop :=
  ∀ (bb : Byte) (w : Word) (s : State), ∀ r ∈ lsrRows bb w, r.printed ∧
    Completes r.instr s fun t => ∃ v : Byte,
      WritesTarget r.operand [.c, .z, .n] s t v ∧ t.flags.c = (targetM r.operand s).getLsbD 0 ∧
        v.toNat = (targetM r.operand s).toNat / 2 ∧ (t.flags.z = true ↔ v.toNat = 0) ∧
        (Config.lsrN = .unchanged → t.flags.n = s.flags.n) ∧ (Config.lsrN = .cleared → t.flags.n = false) ∧
        PastIt r.bytes s t

/-- Nine ROLs of A restore A and C: a rotation of nine bits. -/
def Obligations.NineRolsRestore : Prop :=
  ∀ s : State, ∃ run : Nat → State, run 0 = s ∧ (∀ k < 9, exec .rolAcc (run k) = .next (run (k + 1))) ∧
    (run 9).a = s.a ∧ (run 9).flags.c = s.flags.c

/-! ### Control transfer -/

/-- The eight conditional branches: taken exactly on their condition, to the signed offset from the next instruction, modulo
65536; else the next instruction. Only PC is written. Of each complementary pair exactly one is taken. -/
def Obligations.ConditionalBranches : Prop :=
  ∀ (bb : Byte) (s : State),
    (∀ r ∈ branchRows bb s.flags, encode r.2.1 = [r.1, bb] ∧ tableCycles r.2.1 = 2 ∧ Completes r.2.1 s fun t =>
      KeepsAllBut [] s t ∧
        (r.2.2 = true → (t.pc.toNat : Int) = (s.pc.toNat + 2 + bb.toInt) % 65536) ∧
        (r.2.2 = false → t.pc.toNat = (s.pc.toNat + 2) % 65536)) ∧
    (branchRows bb s.flags).countP (fun r => r.2.2) = 4

/-- JMP: absolute, to the operand; indirect, to the word at the pointer, whose high byte is read from the pointer's own page.
Only PC is written. -/
def Obligations.JumpTargets : Prop :=
  ∀ (w : Word) (s : State),
    (encode (.jmpAbs w) = [0x4C, loByte w, hiByte w] ∧ tableCycles (.jmpAbs w) = 3) ∧
    (encode (.jmpInd w) = [0x6C, loByte w, hiByte w] ∧ tableCycles (.jmpInd w) = 5) ∧
    Completes (.jmpAbs w) s (fun t => KeepsAllBut [] s t ∧ t.pc = w) ∧
    Completes (.jmpInd w) s (fun t => KeepsAllBut [] s t ∧
      (let highAt := BitVec.ofNat 16 (w.toNat / 256 * 256 + (w.toNat % 256 + 1) % 256)
       t.pc = wordOf ((s.load w).2.load highAt).1 (s.load w).1))

/-- JSR: pushes the address of its own third byte, high byte first, and jumps. Where a push goes to that third byte, only the
low byte of the new PC is fixed (the high byte is free: log 11). That a push to an address that is not RAM changes no byte is the
model's choice (log 7). -/
def Obligations.JsrPushesAndJumps : Prop :=
  ∀ (w : Word) (s : State), encode (.jsr w) = [0x20, loByte w, hiByte w] ∧ tableCycles (.jsr w) = 6 ∧
    Completes (.jsr w) s fun t =>
      PushedWord s t (s.pc + 2) ∧ t.sp = s.sp - 2 ∧ KeepsAllBut [.sp, .mem] s t ∧
        (stackAddr s.sp ≠ s.pc + 2 → stackAddr (s.sp - 1) ≠ s.pc + 2 → t.pc = w) ∧ loByte t.pc = loByte w

/-- RTS: pulls a word, low byte first, and continues one past it. Only SP and PC are written. -/
def Obligations.RtsPullsAndReturns : Prop :=
  Implied 0x60 6 .rts ∧ ∀ s : State,
    Completes .rts s fun t =>
      (let lo := s.load (stackAddr (s.sp + 1))
       t.pc = wordOf (lo.2.load (stackAddr (s.sp + 2))).1 lo.1 + 1) ∧
        t.sp = s.sp + 2 ∧ KeepsAllBut [.sp] s t

/-- A subroutine returns: from any state with the map, the SP and the two stack bytes that JSR left, RTS continues at the
instruction after the JSR, with SP as it was before it. -/
def Obligations.SubroutineReturns : Prop :=
  ∀ (w : Word) (s u h : State), s.stackIsRam → exec (.jsr w) s = .next u →
    h.platform = u.platform → h.sp = u.sp →
    (∀ k : Byte, k < 2 → h.mem.read (stackAddr (s.sp - k)) = u.mem.read (stackAddr (s.sp - k))) →
    ∃ t, exec .rts h = .next t ∧ t.pc = s.pc + 3 ∧ t.sp = s.sp ∧ KeepsAllBut [.sp] h t

/-! ### System and flags -/

/-- BRK: the exception entry with return address PC + 2, bit 4 of the pushed byte 1, through `VEC_IRQ`, whatever I is. That a push
to an address that is not RAM changes no byte is the model's choice (log 7). -/
def Obligations.BrkEntry : Prop :=
  Implied 0x00 7 .brk ∧ ∀ s : State, Completes .brk s fun t => Entered s t (s.pc + 2) true s.vectors.irq []

/-- RTI: the six flags from the first pulled byte, PC from the next two, low byte first, with no adjustment. -/
def Obligations.RtiRestores : Prop :=
  Implied 0x40 6 .rti ∧ ∀ s : State,
    Completes .rti s fun t =>
      let p := s.load (stackAddr (s.sp + 1))
      let lo := p.2.load (stackAddr (s.sp + 2))
      let hi := lo.2.load (stackAddr (s.sp + 3))
      (t.flags.n = p.1.getLsbD 7 ∧ t.flags.v = p.1.getLsbD 6 ∧ t.flags.d = p.1.getLsbD 3 ∧
        t.flags.i = p.1.getLsbD 2 ∧ t.flags.z = p.1.getLsbD 1 ∧ t.flags.c = p.1.getLsbD 0) ∧
      t.pc = wordOf hi.1 lo.1 ∧ t.sp = s.sp + 3 ∧ KeepsAllBut [.sp, .n, .v, .d, .i, .z, .c] s t

/-- A handler returns: after a BRK, an IRQ or an NMI entry, from any state with the map, the SP and the three stack bytes the
entry left, RTI restores the six flags as they were before the entry, I among them, and SP, and resumes at the instruction that
would have executed next, or at BRK's address + 2. -/
def Obligations.HandlerReturns : Prop :=
  ∀ (s u h : State) (ret : Word), s.stackIsRam →
    ((exec .brk s = .next u ∧ ret = s.pc + 2) ∨ (u = s.takeIrq ∧ ret = s.pc) ∨ (u = s.takeNmi ∧ ret = s.pc)) →
    h.platform = u.platform → h.sp = u.sp →
    (∀ k : Byte, k < 3 → h.mem.read (stackAddr (s.sp - k)) = u.mem.read (stackAddr (s.sp - k))) →
    ∃ t, exec .rti h = .next t ∧ t.pc = ret ∧ t.flags = s.flags ∧ t.sp = s.sp ∧
      KeepsAllBut [.sp, .n, .v, .d, .i, .z, .c] h t

/-- The seven flag instructions: one flag set or cleared, PC past the byte, nothing else; NOP: PC alone. -/
def Obligations.FlagInstructionsAndNop : Prop :=
  (Implied 0x18 2 .clc ∧ Implied 0xD8 2 .cld ∧ Implied 0x58 2 .cli ∧ Implied 0xB8 2 .clv ∧
    Implied 0x38 2 .sec ∧ Implied 0xF8 2 .sed ∧ Implied 0x78 2 .sei ∧ Implied 0xEA 2 .nop) ∧
  ∀ s : State,
    exec .clc s = .next { s with flags := { s.flags with c := false }, pc := s.pc + 1 } ∧
    exec .cld s = .next { s with flags := { s.flags with d := false }, pc := s.pc + 1 } ∧
    exec .cli s = .next { s with flags := { s.flags with i := false }, pc := s.pc + 1 } ∧
    exec .clv s = .next { s with flags := { s.flags with v := false }, pc := s.pc + 1 } ∧
    exec .sec s = .next { s with flags := { s.flags with c := true }, pc := s.pc + 1 } ∧
    exec .sed s = .next { s with flags := { s.flags with d := true }, pc := s.pc + 1 } ∧
    exec .sei s = .next { s with flags := { s.flags with i := true }, pc := s.pc + 1 } ∧
    exec .nop s = .next { s with pc := s.pc + 1 }

/-! ### Loads, stores, stack, transfers -/

/-- LDA, LDX, LDY, in all their forms: the register becomes M, N and Z show it; nothing else is written. -/
def Obligations.LoadResults : Prop :=
  ∀ (bb : Byte) (w : Word) (s : State),
    (∀ r ∈ ldaRows bb w, r.printed ∧ Completes r.instr s fun t =>
      t.a = operandM r.operand s ∧ ShowsNZ t (operandM r.operand s) ∧
        KeepsAllBut [.a, .n, .z] s t ∧ PastIt r.bytes s t) ∧
    (∀ r ∈ ldxRows bb w, r.printed ∧ Completes r.instr s fun t =>
      t.x = operandM r.operand s ∧ ShowsNZ t (operandM r.operand s) ∧
        KeepsAllBut [.x, .n, .z] s t ∧ PastIt r.bytes s t) ∧
    (∀ r ∈ ldyRows bb w, r.printed ∧ Completes r.instr s fun t =>
      t.y = operandM r.operand s ∧ ShowsNZ t (operandM r.operand s) ∧
        KeepsAllBut [.y, .n, .z] s t ∧ PastIt r.bytes s t)

/-- STA, STX, STY, in all their forms: the byte at the effective address becomes the register, where it is RAM; no flag, no
register and no other byte changes. That no byte changes where the address is not RAM is the model's choice (log 7). -/
def Obligations.StoreResults : Prop :=
  ∀ (bb : Byte) (w : Word) (s : State),
    ∀ g ∈ [(s.a, staRows bb w), (s.x, stxRows bb w), (s.y, styRows bb w)], ∀ r ∈ g.2, r.printed ∧
      Completes r.instr s fun t =>
        StoredOnly s t (addrEA r.operand s).1 g.1 ∧ KeepsAllBut [.mem] s t ∧ PastIt r.bytes s t

/-- The operand value: the immediate byte itself; else the byte read at the effective address after the mode's own accesses. -/
def Obligations.OperandValues : Prop :=
  ∀ (s : State) (bb : Byte) (m : Addr),
    sourceValue (.imm bb) s = (bb, s) ∧
    sourceValue (.mem m) s = (addrEA m s).2.load (addrEA m s).1 ∧
    (s.plainAt (addrEA m s).1 = true → operandM (.mem m) s = s.mem.read (addrEA m s).1)

/-- PHA and PHP: the byte at `$0100 + SP` becomes A, or SR with bits 5 and 4 both 1; SP less 1; no flag and no other byte.
That no byte changes where that address is not RAM is the model's choice (log 7). -/
def Obligations.PushInstructions : Prop :=
  (Implied 0x48 3 .pha ∧ Implied 0x08 3 .php) ∧ ∀ s : State,
    Completes .pha s (fun t => StoredOnly s t (stackAddr s.sp) s.a ∧ t.sp = s.sp - 1 ∧
      KeepsAllBut [.sp, .mem] s t ∧ PastIt 1 s t) ∧
    Completes .php s (fun t => StoredOnly s t (stackAddr s.sp) (s.flags.toByte true) ∧ t.sp = s.sp - 1 ∧
      KeepsAllBut [.sp, .mem] s t ∧ PastIt 1 s t)

/-- PLA and PLP: SP plus 1, then A with N and Z, or all six flags, from the byte SP names; no byte of memory changes. -/
def Obligations.PullInstructions : Prop :=
  (Implied 0x68 4 .pla ∧ Implied 0x28 4 .plp) ∧ ∀ s : State,
    Completes .pla s (fun t => t.a = (s.load (stackAddr (s.sp + 1))).1 ∧ ShowsNZ t t.a ∧ t.sp = s.sp + 1 ∧
      KeepsAllBut [.a, .sp, .n, .z] s t ∧ PastIt 1 s t) ∧
    Completes .plp s (fun t =>
      (let p := (s.load (stackAddr (s.sp + 1))).1
       t.flags.n = p.getLsbD 7 ∧ t.flags.v = p.getLsbD 6 ∧ t.flags.d = p.getLsbD 3 ∧
        t.flags.i = p.getLsbD 2 ∧ t.flags.z = p.getLsbD 1 ∧ t.flags.c = p.getLsbD 0) ∧
      t.sp = s.sp + 1 ∧ KeepsAllBut [.sp, .n, .v, .d, .i, .z, .c] s t ∧ PastIt 1 s t)

/-- A value pushed is the value pulled: PLA after PHA gives A back, PLP after PHP the six flags, and SP as it was, whatever A
and the flags have become between. -/
def Obligations.PullAfterPush : Prop :=
  ∀ (s : State) (a : Byte) (f : Flags), s.stackIsRam →
    (∃ u t, exec .pha s = .next u ∧ exec .pla { u with a := a, flags := f } = .next t ∧ t.a = s.a ∧ t.sp = s.sp) ∧
    (∃ u t, exec .php s = .next u ∧ exec .plp { u with a := a, flags := f } = .next t ∧
      t.flags = s.flags ∧ t.sp = s.sp)

/-- TAX, TAY, TSX, TXA, TYA: the register copied, N and Z from the value; nothing else. -/
def Obligations.TransferResults : Prop :=
  (Implied 0xAA 2 .tax ∧ Implied 0xA8 2 .tay ∧ Implied 0xBA 2 .tsx ∧ Implied 0x8A 2 .txa ∧ Implied 0x98 2 .tya) ∧
  ∀ s : State,
    Completes .tax s (fun t => t.x = s.a ∧ ShowsNZ t s.a ∧ KeepsAllBut [.x, .n, .z] s t ∧ PastIt 1 s t) ∧
    Completes .tay s (fun t => t.y = s.a ∧ ShowsNZ t s.a ∧ KeepsAllBut [.y, .n, .z] s t ∧ PastIt 1 s t) ∧
    Completes .tsx s (fun t => t.x = s.sp ∧ ShowsNZ t s.sp ∧ KeepsAllBut [.x, .n, .z] s t ∧ PastIt 1 s t) ∧
    Completes .txa s (fun t => t.a = s.x ∧ ShowsNZ t s.x ∧ KeepsAllBut [.a, .n, .z] s t ∧ PastIt 1 s t) ∧
    Completes .tya s (fun t => t.a = s.y ∧ ShowsNZ t s.y ∧ KeepsAllBut [.a, .n, .z] s t ∧ PastIt 1 s t)

/-- TXS: SP becomes X; N and Z follow the open parameter `TXS_FLAGS`; nothing else. -/
def Obligations.TxsResult : Prop :=
  Implied 0x9A 2 .txs ∧ ∀ s : State,
    Completes .txs s fun t => t.sp = s.x ∧ KeepsAllBut [.sp, .n, .z] s t ∧ PastIt 1 s t ∧
      (Config.txsFlags = .setsNZ → ShowsNZ t s.x) ∧
      (Config.txsFlags = .none → t.flags.n = s.flags.n ∧ t.flags.z = s.flags.z)

/-! ### The whole instruction set -/

/-- No instruction of the 151 faults or is refused, in any state. -/
def Obligations.NoInstructionFaults : Prop :=
  ∀ (i : Instr) (s : State), ∃ t, exec i s = .next t

/-- Every instruction writes only the pieces of state in its line of the table of R38 (and PC); all else is unchanged. -/
def Obligations.InstructionsWriteOnlyTheirLine : Prop :=
  ∀ (i : Instr) (s t : State), exec i s = .next t → KeepsAllBut (writtenParts i) s t

/-- D is read by ADC and SBC only, but for PHP and BRK, which push it: any other instruction, run with D either way, gives next
states that differ in D alone. PHP and BRK are left out: PushInstructions and BrkEntry speak of them. The two runs are compared
with the same free values (a read of an address that is no plain memory, a JSR over its third byte), the model's choice and
unsafe in a comparison of two runs (log 3), where R9 draws each freely. -/
def Obligations.OnlyAdcSbcReadDecimalFlag : Prop :=
  ∀ (i : Instr) (s t : State) (d : Bool), i.mnemonic ∉ [.adc, .sbc, .php, .brk] → exec i s = .next t →
    ∃ t', exec i { s with flags := { s.flags with d := d } } = .next t' ∧
      { t' with flags := { t'.flags with d := t.flags.d } } = t

/-- Bytes of memory change only where an instruction stores: at the effective address of a store or a read-modify-write, or in
the stack page for a push, a call or BRK; and there only in RAM, which is the model's choice (log 7). The exact slots of the stack
page are in JsrPushesAndJumps, BrkEntry and PushInstructions. -/
def Obligations.StoresStayAtTheirAddress : Prop :=
  ∀ (i : Instr) (s t : State) (b : Word), exec i s = .next t → t.mem.read b ≠ s.mem.read b →
    s.kindAt b = .ram ∧
    ((∃ m, i.operand = .mem m ∧ i.mnemonic ∈ [.asl, .lsr, .rol, .ror, .inc, .dec, .sta, .stx, .sty] ∧
        b = (addrEA m s).1) ∨
     (i.mnemonic ∈ [.pha, .php, .jsr, .brk] ∧ hiByte b = 0x01))

/-! ### Timing -/

/-- A page is crossed, in abs,X and abs,Y when `b1 + index > 255`, in (ind),Y when the pointer's low byte plus Y is; and the two
footnotes: one cycle more for a starred read that crosses, and for a branch 2 cycles when not taken, 3 when taken to the page of
the next instruction, 4 when taken to another. -/
def Obligations.PageCrossingCycles : Prop :=
  ∀ (s : State) (w : Word) (bb : Byte),
    (pageCrossed (.absX w) s = true ↔ 255 < w.toNat % 256 + s.x.toNat) ∧
    (pageCrossed (.absY w) s = true ↔ 255 < w.toNat % 256 + s.y.toNat) ∧
    (pageCrossed (.indY bb) s = true ↔
      255 < (s.loadInPage (zext16 bb)).1.toNat % 256 + s.y.toNat) ∧
    (∀ (i : Instr) (m : Addr), i.operand = .mem m →
      cycles i s = tableCycles i + if starred i = true ∧ pageCrossed m s = true then 1 else 0) ∧
    (∀ r ∈ branchRows bb s.flags,
      (r.2.2 = false → cycles r.2.1 s = 2) ∧
      (r.2.2 = true → cycles r.2.1 s =
        if (branchTarget (s.pc + 2) bb).toNat / 256 = (s.pc + 2).toNat / 256 then 3 else 4))
end

