-- ==== Sys2Proof/Laws/Flags.lean ====
section
/-! SUPPORT. The small lemmas of the flag computations: each field of what they give, and the results' values as naturals. -/

namespace Sys2Proof.Machine

@[simp] theorem setNZ_n (f : Flags) (r : Byte) : (f.setNZ r).n = r.msb := rfl
@[simp] theorem setNZ_z (f : Flags) (r : Byte) : (f.setNZ r).z = decide (r = 0) := rfl
@[simp] theorem setNZ_v (f : Flags) (r : Byte) : (f.setNZ r).v = f.v := rfl
@[simp] theorem setNZ_d (f : Flags) (r : Byte) : (f.setNZ r).d = f.d := rfl
@[simp] theorem setNZ_i (f : Flags) (r : Byte) : (f.setNZ r).i = f.i := rfl
@[simp] theorem setNZ_c (f : Flags) (r : Byte) : (f.setNZ r).c = f.c := rfl

@[simp] theorem compare_n (f : Flags) (r m : Byte) : (f.compare r m).n = (r - m).msb := rfl
@[simp] theorem compare_z (f : Flags) (r m : Byte) : (f.compare r m).z = decide (r - m = 0) := rfl
@[simp] theorem compare_c (f : Flags) (r m : Byte) : (f.compare r m).c = decide (m.toNat ≤ r.toNat) := rfl
@[simp] theorem compare_v (f : Flags) (r m : Byte) : (f.compare r m).v = f.v := rfl
@[simp] theorem compare_d (f : Flags) (r m : Byte) : (f.compare r m).d = f.d := rfl
@[simp] theorem compare_i (f : Flags) (r m : Byte) : (f.compare r m).i = f.i := rfl

@[simp] theorem bitTest_c (f : Flags) (a m : Byte) : (f.bitTest a m).c = f.c := rfl
@[simp] theorem bitTest_d (f : Flags) (a m : Byte) : (f.bitTest a m).d = f.d := rfl
@[simp] theorem bitTest_i (f : Flags) (a m : Byte) : (f.bitTest a m).i = f.i := rfl

/-- TXS writes N and Z only, whatever the parameter `TXS_FLAGS` is. -/
theorem afterTxs_cases (f : Flags) (x : Byte) : f.afterTxs x = f.setNZ x ∨ f.afterTxs x = f := by
  unfold Flags.afterTxs
  cases Config.txsFlags
  · exact .inl rfl
  · exact .inr rfl

/-- N after LSR is the old N or 0, whatever the parameter `LSR_N` is. -/
theorem lsrNegative_cases (old : Bool) : lsrNegative old = old ∨ lsrNegative old = false := by
  unfold lsrNegative
  cases Config.lsrN
  · exact .inl rfl
  · exact .inr rfl

/-- The value of a byte made from a natural. -/
theorem ofNat8_toNat (k : Nat) : (BitVec.ofNat 8 k).toNat = k % 256 := BitVec.toNat_ofNat k 8

/-- Decimal addition is defined exactly for valid BCD operands (40_arithmetic.md R111). -/
theorem addDecimal_isSome (c : Bool) (a m : Byte) :
    (addDecimal c a m).isSome = (validBcd a && validBcd m) := by
  unfold addDecimal
  split <;> simp_all

/-- Decimal subtraction is defined exactly for valid BCD operands (R112). -/
theorem subDecimal_isSome (c : Bool) (a m : Byte) :
    (subDecimal c a m).isSome = (validBcd a && validBcd m) := by
  unfold subDecimal
  split
  · next h =>
    rw [h]
    simp only
    split <;> rfl
  · next h =>
    rw [Bool.eq_false_iff.2 h]
    rfl

end Sys2Proof.Machine
end

