-- ==== Sys2Proof/Laws/Memory.lean ====
section
/-! SUPPORT. Reading after writing, and the canonical form of memory. -/

namespace Sys2Proof.Machine

theorem Memory.get_cons (k : Nat) (c : Host.Cell) (m : Memory) :
    Memory.get k (c :: m) = if c.1 = k then c.2 else Memory.get k m := rfl

theorem Memory.erase_cons (j : Nat) (c : Host.Cell) (m : Memory) :
    Memory.erase j (c :: m) = if c.1 = j then Memory.erase j m else c :: Memory.erase j m := rfl

theorem Memory.place_cons (c d : Host.Cell) (m : Memory) :
    Memory.place c (d :: m) = if c.1 < d.1 then c :: d :: m else d :: Memory.place c m := rfl

theorem Memory.get_erase (k j : Nat) (m : Memory) :
    Memory.get k (Memory.erase j m) = if k = j then Config.blankByte else Memory.get k m := by
  induction m with
  | nil => simp [Memory.erase, Memory.get]
  | cons c rest ih =>
    rw [Memory.erase_cons, Memory.get_cons]
    split
    · next hc =>
      rw [ih]
      split
      · rfl
      · next hk => rw [if_neg (fun h => hk (h.symm.trans hc))]
    · next hc =>
      rw [Memory.get_cons, ih]
      split
      · next hk => rw [if_neg (fun h => hc (hk.trans h))]
      · rfl

theorem Memory.not_mem_erase (j : Nat) (m : Memory) : ∀ d ∈ Memory.erase j m, d.1 ≠ j := by
  induction m with
  | nil => simp [Memory.erase]
  | cons c rest ih =>
    by_cases hc : c.1 = j
    · simpa [Memory.erase, hc] using ih
    · intro d hd
      rcases List.mem_cons.1 (by simpa [Memory.erase, hc] using hd) with h | h
      · exact h ▸ hc
      · exact ih d h

theorem Memory.get_place (k : Nat) (c : Host.Cell) (m : Memory) (fresh : ∀ d ∈ m, d.1 ≠ c.1) :
    Memory.get k (Memory.place c m) = if k = c.1 then c.2 else Memory.get k m := by
  induction m with
  | nil => simp [Memory.place, Memory.get, eq_comm]
  | cons d rest ih =>
    have hd : d.1 ≠ c.1 := fresh d (by simp)
    have hr := ih (fun e he => fresh e (by simp [he]))
    rw [Memory.place_cons]
    split
    · simp [Memory.get_cons, eq_comm]
    · rw [Memory.get_cons, Memory.get_cons, hr]
      split
      · next hk => rw [if_neg (fun h => hd (hk.trans h))]
      · rfl

/-- A read after a write: the value written at that address, the old byte at every other. -/
theorem Memory.read_write (m : Memory) (a b : Word) (v : Byte) :
    (m.write a v).read b = if b = a then v else m.read b := by
  have key : b.toNat = a.toNat ↔ b = a := BitVec.toNat_inj
  unfold Memory.read Memory.write
  split
  · next h => rw [Memory.get_erase]; simp [key, h]
  · rw [Memory.get_place _ _ _ (Memory.not_mem_erase _ _), Memory.get_erase]
    simp only [key]
    split <;> simp_all

@[simp] theorem Memory.read_write_same (m : Memory) (a : Word) (v : Byte) : (m.write a v).read a = v := by
  simp [Memory.read_write]

theorem Memory.read_write_other (m : Memory) {a b : Word} (v : Byte) (h : b ≠ a) :
    (m.write a v).read b = m.read b := by
  simp [Memory.read_write, h]

/-- The cells listed rise from above `floor`, stated as one condition on the head and one on the tail. -/
theorem Memory.risingFrom_cons (floor : Option Nat) (c : Host.Cell) (m : Memory) :
    Memory.risingFrom floor (c :: m) = true ↔
      (∀ f, floor = some f → f < c.1) ∧ c.1 < 65536 ∧ c.2 ≠ Config.blankByte ∧
        Memory.risingFrom (some c.1) m = true := by
  cases floor <;> simp [Memory.risingFrom, and_assoc]

theorem Memory.risingFrom_weaken {floor : Option Nat} {j : Nat} {m : Memory}
    (below : ∀ f, floor = some f → f < j) (h : Memory.risingFrom (some j) m = true) :
    Memory.risingFrom floor m = true := by
  cases m with
  | nil => rfl
  | cons c rest =>
    obtain ⟨h1, h2⟩ := (Memory.risingFrom_cons _ _ _).1 h
    exact (Memory.risingFrom_cons _ _ _).2 ⟨fun f hf => lt_trans (below f hf) (h1 j rfl), h2⟩

theorem Memory.risingFrom_erase (j : Nat) (m : Memory) :
    ∀ floor, Memory.risingFrom floor m = true → Memory.risingFrom floor (Memory.erase j m) = true := by
  induction m with
  | nil => intro _ _; rfl
  | cons c rest ih =>
    intro floor h
    obtain ⟨h1, h2, h3, h4⟩ := (Memory.risingFrom_cons _ _ _).1 h
    by_cases hc : c.1 = j
    · simpa [Memory.erase, hc] using ih floor (Memory.risingFrom_weaken h1 h4)
    · simpa [Memory.erase, hc] using (Memory.risingFrom_cons floor c _).2 ⟨h1, h2, h3, ih _ h4⟩

theorem Memory.risingFrom_place (c : Host.Cell) (small : c.1 < 65536) (listed : c.2 ≠ Config.blankByte) (m : Memory)
    (fresh : ∀ d ∈ m, d.1 ≠ c.1) :
    ∀ floor, (∀ f, floor = some f → f < c.1) → Memory.risingFrom floor m = true →
      Memory.risingFrom floor (Memory.place c m) = true := by
  induction m with
  | nil => intro floor hf _; exact (Memory.risingFrom_cons _ _ _).2 ⟨hf, small, listed, rfl⟩
  | cons d rest ih =>
    intro floor hf h
    obtain ⟨h1, h2, h3, h4⟩ := (Memory.risingFrom_cons _ _ _).1 h
    by_cases hlt : c.1 < d.1
    · have hd : Memory.risingFrom (some c.1) (d :: rest) = true :=
        (Memory.risingFrom_cons _ _ _).2 ⟨fun f hf => by cases hf; exact hlt, h2, h3, h4⟩
      simpa [Memory.place, hlt] using (Memory.risingFrom_cons floor c _).2 ⟨hf, small, listed, hd⟩
    · have hgt : d.1 < c.1 := lt_of_le_of_ne (not_lt.1 hlt) (fresh d (by simp))
      have hr := ih (fun e he => fresh e (by simp [he])) (some d.1) (fun f hf => by cases hf; exact hgt) h4
      simpa [Memory.place, hlt] using (Memory.risingFrom_cons floor d _).2 ⟨h1, h2, h3, hr⟩

/-- Every write keeps the canonical form. -/
theorem Memory.wf_write (m : Memory) (a : Word) (v : Byte) (h : m.wf = true) : (m.write a v).wf = true := by
  have he := Memory.risingFrom_erase a.toNat m none h
  unfold Memory.write
  split
  · exact he
  · next hv =>
    exact Memory.risingFrom_place _ a.isLt hv _ (Memory.not_mem_erase _ _) none (by simp) he

/-- The memory right after reset has the canonical form. -/
theorem reset_mem_wf : State.reset.mem.wf = true := rfl

end Sys2Proof.Machine
end

