-- ==== Sys2Proof/Laws/State.lean ====
section
/-! SUPPORT. One lemma per field per update of the state, so that no proof unfolds a record update. -/

namespace Sys2Proof.Machine

@[simp] theorem State.withA_a (s : State) (v : Byte) : (s.withA v).a = v := rfl
@[simp] theorem State.withA_x (s : State) (v : Byte) : (s.withA v).x = s.x := rfl
@[simp] theorem State.withA_y (s : State) (v : Byte) : (s.withA v).y = s.y := rfl
@[simp] theorem State.withA_sp (s : State) (v : Byte) : (s.withA v).sp = s.sp := rfl
@[simp] theorem State.withA_pc (s : State) (v : Byte) : (s.withA v).pc = s.pc := rfl
@[simp] theorem State.withA_flags (s : State) (v : Byte) : (s.withA v).flags = s.flags := rfl
@[simp] theorem State.withA_mem (s : State) (v : Byte) : (s.withA v).mem = s.mem := rfl
@[simp] theorem State.withA_nmiPending (s : State) (v : Byte) : (s.withA v).nmiPending = s.nmiPending := rfl
@[simp] theorem State.withA_platform (s : State) (v : Byte) : (s.withA v).platform = s.platform := rfl
@[simp] theorem State.withA_vectors (s : State) (v : Byte) : (s.withA v).vectors = s.vectors := rfl
@[simp] theorem State.withA_inputs (s : State) (v : Byte) : (s.withA v).inputs = s.inputs := rfl
@[simp] theorem State.withA_draws (s : State) (v : Byte) : (s.withA v).draws = s.draws := rfl
@[simp] theorem State.withA_self (s : State) : s.withA s.a = s := rfl
@[simp] theorem State.withA_withA (s : State) (v w : Byte) : (s.withA v).withA w = s.withA w := rfl

@[simp] theorem State.withX_a (s : State) (v : Byte) : (s.withX v).a = s.a := rfl
@[simp] theorem State.withX_x (s : State) (v : Byte) : (s.withX v).x = v := rfl
@[simp] theorem State.withX_y (s : State) (v : Byte) : (s.withX v).y = s.y := rfl
@[simp] theorem State.withX_sp (s : State) (v : Byte) : (s.withX v).sp = s.sp := rfl
@[simp] theorem State.withX_pc (s : State) (v : Byte) : (s.withX v).pc = s.pc := rfl
@[simp] theorem State.withX_flags (s : State) (v : Byte) : (s.withX v).flags = s.flags := rfl
@[simp] theorem State.withX_mem (s : State) (v : Byte) : (s.withX v).mem = s.mem := rfl
@[simp] theorem State.withX_nmiPending (s : State) (v : Byte) : (s.withX v).nmiPending = s.nmiPending := rfl
@[simp] theorem State.withX_platform (s : State) (v : Byte) : (s.withX v).platform = s.platform := rfl
@[simp] theorem State.withX_vectors (s : State) (v : Byte) : (s.withX v).vectors = s.vectors := rfl
@[simp] theorem State.withX_inputs (s : State) (v : Byte) : (s.withX v).inputs = s.inputs := rfl
@[simp] theorem State.withX_draws (s : State) (v : Byte) : (s.withX v).draws = s.draws := rfl
@[simp] theorem State.withX_self (s : State) : s.withX s.x = s := rfl
@[simp] theorem State.withX_withX (s : State) (v w : Byte) : (s.withX v).withX w = s.withX w := rfl

@[simp] theorem State.withY_a (s : State) (v : Byte) : (s.withY v).a = s.a := rfl
@[simp] theorem State.withY_x (s : State) (v : Byte) : (s.withY v).x = s.x := rfl
@[simp] theorem State.withY_y (s : State) (v : Byte) : (s.withY v).y = v := rfl
@[simp] theorem State.withY_sp (s : State) (v : Byte) : (s.withY v).sp = s.sp := rfl
@[simp] theorem State.withY_pc (s : State) (v : Byte) : (s.withY v).pc = s.pc := rfl
@[simp] theorem State.withY_flags (s : State) (v : Byte) : (s.withY v).flags = s.flags := rfl
@[simp] theorem State.withY_mem (s : State) (v : Byte) : (s.withY v).mem = s.mem := rfl
@[simp] theorem State.withY_nmiPending (s : State) (v : Byte) : (s.withY v).nmiPending = s.nmiPending := rfl
@[simp] theorem State.withY_platform (s : State) (v : Byte) : (s.withY v).platform = s.platform := rfl
@[simp] theorem State.withY_vectors (s : State) (v : Byte) : (s.withY v).vectors = s.vectors := rfl
@[simp] theorem State.withY_inputs (s : State) (v : Byte) : (s.withY v).inputs = s.inputs := rfl
@[simp] theorem State.withY_draws (s : State) (v : Byte) : (s.withY v).draws = s.draws := rfl
@[simp] theorem State.withY_self (s : State) : s.withY s.y = s := rfl
@[simp] theorem State.withY_withY (s : State) (v w : Byte) : (s.withY v).withY w = s.withY w := rfl

@[simp] theorem State.withSp_a (s : State) (v : Byte) : (s.withSp v).a = s.a := rfl
@[simp] theorem State.withSp_x (s : State) (v : Byte) : (s.withSp v).x = s.x := rfl
@[simp] theorem State.withSp_y (s : State) (v : Byte) : (s.withSp v).y = s.y := rfl
@[simp] theorem State.withSp_sp (s : State) (v : Byte) : (s.withSp v).sp = v := rfl
@[simp] theorem State.withSp_pc (s : State) (v : Byte) : (s.withSp v).pc = s.pc := rfl
@[simp] theorem State.withSp_flags (s : State) (v : Byte) : (s.withSp v).flags = s.flags := rfl
@[simp] theorem State.withSp_mem (s : State) (v : Byte) : (s.withSp v).mem = s.mem := rfl
@[simp] theorem State.withSp_nmiPending (s : State) (v : Byte) : (s.withSp v).nmiPending = s.nmiPending := rfl
@[simp] theorem State.withSp_platform (s : State) (v : Byte) : (s.withSp v).platform = s.platform := rfl
@[simp] theorem State.withSp_vectors (s : State) (v : Byte) : (s.withSp v).vectors = s.vectors := rfl
@[simp] theorem State.withSp_inputs (s : State) (v : Byte) : (s.withSp v).inputs = s.inputs := rfl
@[simp] theorem State.withSp_draws (s : State) (v : Byte) : (s.withSp v).draws = s.draws := rfl
@[simp] theorem State.withSp_self (s : State) : s.withSp s.sp = s := rfl
@[simp] theorem State.withSp_withSp (s : State) (v w : Byte) : (s.withSp v).withSp w = s.withSp w := rfl

@[simp] theorem State.withPc_a (s : State) (v : Word) : (s.withPc v).a = s.a := rfl
@[simp] theorem State.withPc_x (s : State) (v : Word) : (s.withPc v).x = s.x := rfl
@[simp] theorem State.withPc_y (s : State) (v : Word) : (s.withPc v).y = s.y := rfl
@[simp] theorem State.withPc_sp (s : State) (v : Word) : (s.withPc v).sp = s.sp := rfl
@[simp] theorem State.withPc_pc (s : State) (v : Word) : (s.withPc v).pc = v := rfl
@[simp] theorem State.withPc_flags (s : State) (v : Word) : (s.withPc v).flags = s.flags := rfl
@[simp] theorem State.withPc_mem (s : State) (v : Word) : (s.withPc v).mem = s.mem := rfl
@[simp] theorem State.withPc_nmiPending (s : State) (v : Word) : (s.withPc v).nmiPending = s.nmiPending := rfl
@[simp] theorem State.withPc_platform (s : State) (v : Word) : (s.withPc v).platform = s.platform := rfl
@[simp] theorem State.withPc_vectors (s : State) (v : Word) : (s.withPc v).vectors = s.vectors := rfl
@[simp] theorem State.withPc_inputs (s : State) (v : Word) : (s.withPc v).inputs = s.inputs := rfl
@[simp] theorem State.withPc_draws (s : State) (v : Word) : (s.withPc v).draws = s.draws := rfl
@[simp] theorem State.withPc_self (s : State) : s.withPc s.pc = s := rfl
@[simp] theorem State.withPc_withPc (s : State) (v w : Word) : (s.withPc v).withPc w = s.withPc w := rfl

@[simp] theorem State.withFlags_a (s : State) (v : Flags) : (s.withFlags v).a = s.a := rfl
@[simp] theorem State.withFlags_x (s : State) (v : Flags) : (s.withFlags v).x = s.x := rfl
@[simp] theorem State.withFlags_y (s : State) (v : Flags) : (s.withFlags v).y = s.y := rfl
@[simp] theorem State.withFlags_sp (s : State) (v : Flags) : (s.withFlags v).sp = s.sp := rfl
@[simp] theorem State.withFlags_pc (s : State) (v : Flags) : (s.withFlags v).pc = s.pc := rfl
@[simp] theorem State.withFlags_flags (s : State) (v : Flags) : (s.withFlags v).flags = v := rfl
@[simp] theorem State.withFlags_mem (s : State) (v : Flags) : (s.withFlags v).mem = s.mem := rfl
@[simp] theorem State.withFlags_nmiPending (s : State) (v : Flags) : (s.withFlags v).nmiPending = s.nmiPending := rfl
@[simp] theorem State.withFlags_platform (s : State) (v : Flags) : (s.withFlags v).platform = s.platform := rfl
@[simp] theorem State.withFlags_vectors (s : State) (v : Flags) : (s.withFlags v).vectors = s.vectors := rfl
@[simp] theorem State.withFlags_inputs (s : State) (v : Flags) : (s.withFlags v).inputs = s.inputs := rfl
@[simp] theorem State.withFlags_draws (s : State) (v : Flags) : (s.withFlags v).draws = s.draws := rfl
@[simp] theorem State.withFlags_self (s : State) : s.withFlags s.flags = s := rfl
@[simp] theorem State.withFlags_withFlags (s : State) (v w : Flags) : (s.withFlags v).withFlags w = s.withFlags w := rfl

@[simp] theorem State.withMem_a (s : State) (v : Memory) : (s.withMem v).a = s.a := rfl
@[simp] theorem State.withMem_x (s : State) (v : Memory) : (s.withMem v).x = s.x := rfl
@[simp] theorem State.withMem_y (s : State) (v : Memory) : (s.withMem v).y = s.y := rfl
@[simp] theorem State.withMem_sp (s : State) (v : Memory) : (s.withMem v).sp = s.sp := rfl
@[simp] theorem State.withMem_pc (s : State) (v : Memory) : (s.withMem v).pc = s.pc := rfl
@[simp] theorem State.withMem_flags (s : State) (v : Memory) : (s.withMem v).flags = s.flags := rfl
@[simp] theorem State.withMem_mem (s : State) (v : Memory) : (s.withMem v).mem = v := rfl
@[simp] theorem State.withMem_nmiPending (s : State) (v : Memory) : (s.withMem v).nmiPending = s.nmiPending := rfl
@[simp] theorem State.withMem_platform (s : State) (v : Memory) : (s.withMem v).platform = s.platform := rfl
@[simp] theorem State.withMem_vectors (s : State) (v : Memory) : (s.withMem v).vectors = s.vectors := rfl
@[simp] theorem State.withMem_inputs (s : State) (v : Memory) : (s.withMem v).inputs = s.inputs := rfl
@[simp] theorem State.withMem_draws (s : State) (v : Memory) : (s.withMem v).draws = s.draws := rfl
@[simp] theorem State.withMem_self (s : State) : s.withMem s.mem = s := rfl
@[simp] theorem State.withMem_withMem (s : State) (v w : Memory) : (s.withMem v).withMem w = s.withMem w := rfl

@[simp] theorem State.withNmiPending_a (s : State) (v : Bool) : (s.withNmiPending v).a = s.a := rfl
@[simp] theorem State.withNmiPending_x (s : State) (v : Bool) : (s.withNmiPending v).x = s.x := rfl
@[simp] theorem State.withNmiPending_y (s : State) (v : Bool) : (s.withNmiPending v).y = s.y := rfl
@[simp] theorem State.withNmiPending_sp (s : State) (v : Bool) : (s.withNmiPending v).sp = s.sp := rfl
@[simp] theorem State.withNmiPending_pc (s : State) (v : Bool) : (s.withNmiPending v).pc = s.pc := rfl
@[simp] theorem State.withNmiPending_flags (s : State) (v : Bool) : (s.withNmiPending v).flags = s.flags := rfl
@[simp] theorem State.withNmiPending_mem (s : State) (v : Bool) : (s.withNmiPending v).mem = s.mem := rfl
@[simp] theorem State.withNmiPending_nmiPending (s : State) (v : Bool) : (s.withNmiPending v).nmiPending = v := rfl
@[simp] theorem State.withNmiPending_platform (s : State) (v : Bool) : (s.withNmiPending v).platform = s.platform := rfl
@[simp] theorem State.withNmiPending_vectors (s : State) (v : Bool) : (s.withNmiPending v).vectors = s.vectors := rfl
@[simp] theorem State.withNmiPending_inputs (s : State) (v : Bool) : (s.withNmiPending v).inputs = s.inputs := rfl
@[simp] theorem State.withNmiPending_draws (s : State) (v : Bool) : (s.withNmiPending v).draws = s.draws := rfl
@[simp] theorem State.withNmiPending_self (s : State) : s.withNmiPending s.nmiPending = s := rfl
@[simp] theorem State.withNmiPending_withNmiPending (s : State) (v w : Bool) : (s.withNmiPending v).withNmiPending w = s.withNmiPending w := rfl

@[simp] theorem State.withPlatform_a (s : State) (v : List Region) : (s.withPlatform v).a = s.a := rfl
@[simp] theorem State.withPlatform_x (s : State) (v : List Region) : (s.withPlatform v).x = s.x := rfl
@[simp] theorem State.withPlatform_y (s : State) (v : List Region) : (s.withPlatform v).y = s.y := rfl
@[simp] theorem State.withPlatform_sp (s : State) (v : List Region) : (s.withPlatform v).sp = s.sp := rfl
@[simp] theorem State.withPlatform_pc (s : State) (v : List Region) : (s.withPlatform v).pc = s.pc := rfl
@[simp] theorem State.withPlatform_flags (s : State) (v : List Region) : (s.withPlatform v).flags = s.flags := rfl
@[simp] theorem State.withPlatform_mem (s : State) (v : List Region) : (s.withPlatform v).mem = s.mem := rfl
@[simp] theorem State.withPlatform_nmiPending (s : State) (v : List Region) : (s.withPlatform v).nmiPending = s.nmiPending := rfl
@[simp] theorem State.withPlatform_platform (s : State) (v : List Region) : (s.withPlatform v).platform = v := rfl
@[simp] theorem State.withPlatform_vectors (s : State) (v : List Region) : (s.withPlatform v).vectors = s.vectors := rfl
@[simp] theorem State.withPlatform_inputs (s : State) (v : List Region) : (s.withPlatform v).inputs = s.inputs := rfl
@[simp] theorem State.withPlatform_draws (s : State) (v : List Region) : (s.withPlatform v).draws = s.draws := rfl
@[simp] theorem State.withPlatform_self (s : State) : s.withPlatform s.platform = s := rfl
@[simp] theorem State.withPlatform_withPlatform (s : State) (v w : List Region) : (s.withPlatform v).withPlatform w = s.withPlatform w := rfl

@[simp] theorem State.withVectors_a (s : State) (v : Vectors) : (s.withVectors v).a = s.a := rfl
@[simp] theorem State.withVectors_x (s : State) (v : Vectors) : (s.withVectors v).x = s.x := rfl
@[simp] theorem State.withVectors_y (s : State) (v : Vectors) : (s.withVectors v).y = s.y := rfl
@[simp] theorem State.withVectors_sp (s : State) (v : Vectors) : (s.withVectors v).sp = s.sp := rfl
@[simp] theorem State.withVectors_pc (s : State) (v : Vectors) : (s.withVectors v).pc = s.pc := rfl
@[simp] theorem State.withVectors_flags (s : State) (v : Vectors) : (s.withVectors v).flags = s.flags := rfl
@[simp] theorem State.withVectors_mem (s : State) (v : Vectors) : (s.withVectors v).mem = s.mem := rfl
@[simp] theorem State.withVectors_nmiPending (s : State) (v : Vectors) : (s.withVectors v).nmiPending = s.nmiPending := rfl
@[simp] theorem State.withVectors_platform (s : State) (v : Vectors) : (s.withVectors v).platform = s.platform := rfl
@[simp] theorem State.withVectors_vectors (s : State) (v : Vectors) : (s.withVectors v).vectors = v := rfl
@[simp] theorem State.withVectors_inputs (s : State) (v : Vectors) : (s.withVectors v).inputs = s.inputs := rfl
@[simp] theorem State.withVectors_draws (s : State) (v : Vectors) : (s.withVectors v).draws = s.draws := rfl
@[simp] theorem State.withVectors_self (s : State) : s.withVectors s.vectors = s := rfl
@[simp] theorem State.withVectors_withVectors (s : State) (v w : Vectors) : (s.withVectors v).withVectors w = s.withVectors w := rfl

@[simp] theorem State.withInputs_a (s : State) (v : List Inputs) : (s.withInputs v).a = s.a := rfl
@[simp] theorem State.withInputs_x (s : State) (v : List Inputs) : (s.withInputs v).x = s.x := rfl
@[simp] theorem State.withInputs_y (s : State) (v : List Inputs) : (s.withInputs v).y = s.y := rfl
@[simp] theorem State.withInputs_sp (s : State) (v : List Inputs) : (s.withInputs v).sp = s.sp := rfl
@[simp] theorem State.withInputs_pc (s : State) (v : List Inputs) : (s.withInputs v).pc = s.pc := rfl
@[simp] theorem State.withInputs_flags (s : State) (v : List Inputs) : (s.withInputs v).flags = s.flags := rfl
@[simp] theorem State.withInputs_mem (s : State) (v : List Inputs) : (s.withInputs v).mem = s.mem := rfl
@[simp] theorem State.withInputs_nmiPending (s : State) (v : List Inputs) : (s.withInputs v).nmiPending = s.nmiPending := rfl
@[simp] theorem State.withInputs_platform (s : State) (v : List Inputs) : (s.withInputs v).platform = s.platform := rfl
@[simp] theorem State.withInputs_vectors (s : State) (v : List Inputs) : (s.withInputs v).vectors = s.vectors := rfl
@[simp] theorem State.withInputs_inputs (s : State) (v : List Inputs) : (s.withInputs v).inputs = v := rfl
@[simp] theorem State.withInputs_draws (s : State) (v : List Inputs) : (s.withInputs v).draws = s.draws := rfl
@[simp] theorem State.withInputs_self (s : State) : s.withInputs s.inputs = s := rfl
@[simp] theorem State.withInputs_withInputs (s : State) (v w : List Inputs) : (s.withInputs v).withInputs w = s.withInputs w := rfl

@[simp] theorem State.withDraws_a (s : State) (v : Nat) : (s.withDraws v).a = s.a := rfl
@[simp] theorem State.withDraws_x (s : State) (v : Nat) : (s.withDraws v).x = s.x := rfl
@[simp] theorem State.withDraws_y (s : State) (v : Nat) : (s.withDraws v).y = s.y := rfl
@[simp] theorem State.withDraws_sp (s : State) (v : Nat) : (s.withDraws v).sp = s.sp := rfl
@[simp] theorem State.withDraws_pc (s : State) (v : Nat) : (s.withDraws v).pc = s.pc := rfl
@[simp] theorem State.withDraws_flags (s : State) (v : Nat) : (s.withDraws v).flags = s.flags := rfl
@[simp] theorem State.withDraws_mem (s : State) (v : Nat) : (s.withDraws v).mem = s.mem := rfl
@[simp] theorem State.withDraws_nmiPending (s : State) (v : Nat) : (s.withDraws v).nmiPending = s.nmiPending := rfl
@[simp] theorem State.withDraws_platform (s : State) (v : Nat) : (s.withDraws v).platform = s.platform := rfl
@[simp] theorem State.withDraws_vectors (s : State) (v : Nat) : (s.withDraws v).vectors = s.vectors := rfl
@[simp] theorem State.withDraws_inputs (s : State) (v : Nat) : (s.withDraws v).inputs = s.inputs := rfl
@[simp] theorem State.withDraws_draws (s : State) (v : Nat) : (s.withDraws v).draws = v := rfl
@[simp] theorem State.withDraws_self (s : State) : s.withDraws s.draws = s := rfl
@[simp] theorem State.withDraws_withDraws (s : State) (v w : Nat) : (s.withDraws v).withDraws w = s.withDraws w := rfl

end Sys2Proof.Machine
end

