-- ==== Sys2Proof/Laws/Ops.lean ====
section
/-! SUPPORT. What each shared operation can do, said once: reads move at most the count of free values; a store changes at
most one byte; the stack and the exception entry are built of the two. -/

namespace Sys2Proof.Machine

/-- `t` is `s` but for a count of free values that has not fallen. -/
def OnlyDraws (s t : State) : Prop := t = s.withDraws t.draws ∧ s.draws ≤ t.draws

theorem OnlyDraws.refl (s : State) : OnlyDraws s s := ⟨rfl, le_refl _⟩

theorem OnlyDraws.trans {s t u : State} (h : OnlyDraws s t) (k : OnlyDraws t u) : OnlyDraws s u := by
  refine ⟨?_, le_trans h.2 k.2⟩
  rw [k.1, h.1]
  simp

theorem OnlyDraws.a {s t : State} (h : OnlyDraws s t) : t.a = s.a := by rw [h.1]; simp
theorem OnlyDraws.x {s t : State} (h : OnlyDraws s t) : t.x = s.x := by rw [h.1]; simp
theorem OnlyDraws.y {s t : State} (h : OnlyDraws s t) : t.y = s.y := by rw [h.1]; simp
theorem OnlyDraws.sp {s t : State} (h : OnlyDraws s t) : t.sp = s.sp := by rw [h.1]; simp
theorem OnlyDraws.pc {s t : State} (h : OnlyDraws s t) : t.pc = s.pc := by rw [h.1]; simp
theorem OnlyDraws.flags {s t : State} (h : OnlyDraws s t) : t.flags = s.flags := by rw [h.1]; simp
theorem OnlyDraws.mem {s t : State} (h : OnlyDraws s t) : t.mem = s.mem := by rw [h.1]; simp
theorem OnlyDraws.nmiPending {s t : State} (h : OnlyDraws s t) : t.nmiPending = s.nmiPending := by rw [h.1]; simp
theorem OnlyDraws.platform {s t : State} (h : OnlyDraws s t) : t.platform = s.platform := by rw [h.1]; simp
theorem OnlyDraws.vectors {s t : State} (h : OnlyDraws s t) : t.vectors = s.vectors := by rw [h.1]; simp
theorem OnlyDraws.inputs {s t : State} (h : OnlyDraws s t) : t.inputs = s.inputs := by rw [h.1]; simp

theorem draw8_onlyDraws (s : State) : OnlyDraws s s.draw8.2 := ⟨rfl, by simp [State.draw8]⟩
theorem draw1_onlyDraws (s : State) : OnlyDraws s s.draw1.2 := ⟨rfl, by simp [State.draw1]⟩

/-- What an address is depends on the platform's map alone. -/
theorem kindAt_of_platform {s t : State} (h : t.platform = s.platform) (a : Word) : t.kindAt a = s.kindAt a := by
  simp [State.kindAt, h]

theorem load_onlyDraws (s : State) (a : Word) : OnlyDraws s (s.load a).2 := by
  unfold State.load
  split
  · exact .refl s
  · exact .refl s
  · exact draw8_onlyDraws s

/-- A read of plain memory gives the byte held there and changes nothing. -/
theorem load_plain {s : State} {a : Word} (h : s.kindAt a ≠ .external) : s.load a = (s.mem.read a, s) := by
  unfold State.load
  split <;> simp_all

/-- A read elsewhere gives the next free byte. -/
theorem load_external {s : State} {a : Word} (h : s.kindAt a = .external) :
    s.load a = (Config.freeByte s.draws, s.withDraws (s.draws + 1)) := by
  simp [State.load, h, State.draw8]

theorem loadWord_onlyDraws (s : State) (a : Word) : OnlyDraws s (s.loadWord a).2 :=
  (load_onlyDraws s a).trans (load_onlyDraws _ _)

theorem loadInPage_onlyDraws (s : State) (p : Word) : OnlyDraws s (s.loadInPage p).2 :=
  (load_onlyDraws s p).trans (load_onlyDraws _ _)

/-- A store is a change of memory alone: the byte in RAM, nothing elsewhere. -/
theorem store_eq (s : State) (a : Word) (v : Byte) :
    s.store a v = s.withMem (if s.kindAt a = .ram then s.mem.write a v else s.mem) := by
  unfold State.store
  split <;> simp_all

/-- The bytes after a store. -/
theorem store_read (s : State) (a b : Word) (v : Byte) :
    (s.store a v).mem.read b = if b = a ∧ s.kindAt a = .ram then v else s.mem.read b := by
  rw [store_eq]
  by_cases h : s.kindAt a = .ram <;> simp [h, Memory.read_write]

@[simp] theorem store_a (s : State) (a : Word) (v : Byte) : (s.store a v).a = s.a := by simp [store_eq]
@[simp] theorem store_x (s : State) (a : Word) (v : Byte) : (s.store a v).x = s.x := by simp [store_eq]
@[simp] theorem store_y (s : State) (a : Word) (v : Byte) : (s.store a v).y = s.y := by simp [store_eq]
@[simp] theorem store_sp (s : State) (a : Word) (v : Byte) : (s.store a v).sp = s.sp := by simp [store_eq]
@[simp] theorem store_pc (s : State) (a : Word) (v : Byte) : (s.store a v).pc = s.pc := by simp [store_eq]
@[simp] theorem store_flags (s : State) (a : Word) (v : Byte) : (s.store a v).flags = s.flags := by simp [store_eq]
@[simp] theorem store_nmiPending (s : State) (a : Word) (v : Byte) : (s.store a v).nmiPending = s.nmiPending := by
  simp [store_eq]
@[simp] theorem store_platform (s : State) (a : Word) (v : Byte) : (s.store a v).platform = s.platform := by
  simp [store_eq]
@[simp] theorem store_vectors (s : State) (a : Word) (v : Byte) : (s.store a v).vectors = s.vectors := by simp [store_eq]
@[simp] theorem store_inputs (s : State) (a : Word) (v : Byte) : (s.store a v).inputs = s.inputs := by simp [store_eq]
@[simp] theorem store_draws (s : State) (a : Word) (v : Byte) : (s.store a v).draws = s.draws := by simp [store_eq]

theorem store_wf (s : State) (a : Word) (v : Byte) (h : s.mem.wf = true) : (s.store a v).mem.wf = true := by
  rw [store_eq]
  by_cases k : s.kindAt a = .ram <;> simp [k, h, Memory.wf_write]

/-- A push: one store at `$0100 + SP`, and SP one less. -/
theorem push8_eq (s : State) (v : Byte) : s.push8 v = (s.store (stackAddr s.sp) v).withSp (s.sp - 1) := rfl

/-- A pull moves SP up by one and at most the count of free values besides. -/
theorem pull8_onlyDraws (s : State) : OnlyDraws (s.withSp (s.sp + 1)) s.pull8.2 := load_onlyDraws _ _

/-- A pull from plain memory. -/
theorem pull8_plain {s : State} (h : s.kindAt (stackAddr (s.sp + 1)) ≠ .external) :
    s.pull8 = (s.mem.read (stackAddr (s.sp + 1)), s.withSp (s.sp + 1)) :=
  load_plain (s := s.withSp (s.sp + 1)) h

theorem push8_wf (s : State) (v : Byte) (h : s.mem.wf = true) : (s.push8 v).mem.wf = true := by
  simpa [push8_eq] using store_wf s _ v h

theorem push16_wf (s : State) (w : Word) (h : s.mem.wf = true) : (s.push16 w).mem.wf = true :=
  push8_wf _ _ (push8_wf _ _ h)

/-- Two pulls move SP up by two and at most the count of free values besides. -/
theorem pull16_onlyDraws (s : State) : OnlyDraws (s.withSp (s.sp + 1 + 1)) s.pull16.2 := by
  have h1 := pull8_onlyDraws s
  have h2 := pull8_onlyDraws s.pull8.2
  have hsp : s.pull8.2.sp = s.sp + 1 := by rw [h1.sp]; simp
  refine ⟨?_, ?_⟩
  · show s.pull8.2.pull8.2 = (s.withSp (s.sp + 1 + 1)).withDraws s.pull8.2.pull8.2.draws
    have e := h2.1
    generalize s.pull8.2.pull8.2.draws = d at e ⊢
    rw [e, hsp, h1.1]
    rfl
  · have a1 := h1.2
    have a2 := h2.2
    simp only [State.withSp_draws] at a1 a2 ⊢
    exact le_trans a1 a2

/-- What a read gives depends on the map, the bytes of memory and the count of free values alone. -/
theorem load_congr {s t : State} (hp : t.platform = s.platform) (hm : t.mem = s.mem) (hd : t.draws = s.draws) (a : Word) :
    (t.load a).1 = (s.load a).1 ∧ (t.load a).2.draws = (s.load a).2.draws := by
  have hk := kindAt_of_platform hp a
  cases k : s.kindAt a with
  | ram | rom => simp [load_plain, k, hk, hm, hd]
  | external => simp [load_external, k, hk, hd]

theorem loadWord_congr {s t : State} (hp : t.platform = s.platform) (hm : t.mem = s.mem) (hd : t.draws = s.draws)
    (a : Word) : (t.loadWord a).1 = (s.loadWord a).1 := by
  have h1 := load_congr hp hm hd a
  have ht := load_onlyDraws t a
  have hs := load_onlyDraws s a
  have h2 := load_congr (s := (s.load a).2) (t := (t.load a).2) (by rw [ht.platform, hs.platform, hp])
    (by rw [ht.mem, hs.mem, hm]) h1.2 (a + 1)
  simp only [State.loadWord]
  rw [h1.1, h2.1]

/-- The exception entry loads PC with the word at the vector, in memory as the entry leaves it. -/
theorem enter_pc (s : State) (ret : Word) (b : Bool) (vector : Word) :
    (s.enter ret b vector).pc = ((s.withMem (s.enter ret b vector).mem).loadWord vector).1 := by
  have h := loadWord_onlyDraws (((s.push16 ret).push8 (s.flags.toByte b)).withFlags
    { ((s.push16 ret).push8 (s.flags.toByte b)).flags with i := true }) vector
  simp only [State.enter, State.withPc_pc, State.withPc_mem]
  refine loadWord_congr ?_ ?_ ?_ vector
  · simp [State.push16, push8_eq]
  · rw [h.mem]; simp
  · simp [State.push16, push8_eq]

/-- The exception entry (60_exceptions.md R213): after the three pushes, only I, PC and the count of free values change. -/
theorem enter_onlyDraws (s : State) (ret : Word) (b : Bool) (vector : Word) :
    let pushed := (s.push16 ret).push8 (s.flags.toByte b)
    OnlyDraws ((pushed.withFlags { s.flags with i := true }).withPc (s.enter ret b vector).pc)
      (s.enter ret b vector) := by
  intro pushed
  have hf : pushed.flags = s.flags := by simp [pushed, State.push16, push8_eq]
  have h := loadWord_onlyDraws (pushed.withFlags { pushed.flags with i := true }) vector
  rw [hf] at h
  refine ⟨?_, ?_⟩
  · simp only [State.enter]
    rw [show ((s.push16 ret).push8 (s.flags.toByte b)) = pushed from rfl, hf]
    conv_lhs => rw [h.1]
    rfl
  · have h2 := h.2
    simp only [State.enter]
    rw [show ((s.push16 ret).push8 (s.flags.toByte b)) = pushed from rfl, hf]
    simpa using h2

end Sys2Proof.Machine
end

