-- ==== Sys2Proof/Laws/Operands.lean ====
section
/-! SUPPORT. What an operand form can do: address modes and operand reads move at most the count of free values (30_encoding.md
R78: no mode changes a register); a read-modify-write and a store change at most the byte at the effective address. -/

namespace Sys2Proof.Machine

theorem addrEA_onlyDraws (m : Addr) (s : State) : OnlyDraws s (addrEA m s).2 := by
  cases m with
  | xInd bb => exact loadInPage_onlyDraws s _
  | indY ll => exact loadInPage_onlyDraws s _
  | _ => exact .refl s

theorem sourceValue_onlyDraws (src : Source) (s : State) : OnlyDraws s (sourceValue src s).2 := by
  cases src with
  | imm bb => exact .refl s
  | mem m => exact (addrEA_onlyDraws m s).trans (load_onlyDraws _ _)

/-- The old operand value of a read-modify-write. -/
def targetValue (t : Target) (s : State) : Byte :=
  match t with
  | .acc => s.a
  | .mem m => ((addrEA m s).2.load (addrEA m s).1).1

/-- The state after the reading half of a read-modify-write. -/
def targetRead (t : Target) (s : State) : State :=
  match t with
  | .acc => s
  | .mem m => ((addrEA m s).2.load (addrEA m s).1).2

theorem targetRead_onlyDraws (t : Target) (s : State) : OnlyDraws s (targetRead t s) := by
  cases t with
  | acc => exact .refl s
  | mem m => exact (addrEA_onlyDraws m s).trans (load_onlyDraws _ _)

theorem readWrite_acc (f : Flags → Byte → Byte × Flags) (s : State) :
    readWrite .acc f s = (s.withA (f s.flags s.a).1).withFlags (f s.flags s.a).2 := rfl

/-- A read-modify-write of memory: the result of the old byte and flags is stored where it was read. -/
theorem readWrite_mem (m : Addr) (f : Flags → Byte → Byte × Flags) (s : State) :
    readWrite (.mem m) f s =
      ((targetRead (.mem m) s).store (addrEA m s).1 (f s.flags (targetValue (.mem m) s)).1).withFlags
        (f s.flags (targetValue (.mem m) s)).2 := by
  have h := (targetRead_onlyDraws (.mem m) s).flags
  simp only [targetRead] at h
  simp only [readWrite, targetRead, targetValue, h]

/-- A store changes memory at most at the effective address, and at most the count of free values besides. -/
theorem storeAt_eq (m : Addr) (v : State → Byte) (s : State) :
    storeAt m v s = (addrEA m s).2.store (addrEA m s).1 (v s) := rfl

/-- Every meaning is its rule performed with PC past the instruction. -/
theorem complete_eq (len : Word) (rule : State → State) (s : State) :
    complete len rule s = .next (rule (s.withPc (s.pc + len))) := rfl

/-- The effective address does not depend on PC. -/
theorem addrEA_withPc (m : Addr) (s : State) (pc : Word) :
    addrEA m (s.withPc pc) = ((addrEA m s).1, (addrEA m s).2.withPc pc) := by
  have load_pc : ∀ (t : State) (a : Word), (t.withPc pc).load a = ((t.load a).1, (t.load a).2.withPc pc) := by
    intro t a
    have hk : (t.withPc pc).kindAt a = t.kindAt a := kindAt_of_platform (by simp) a
    unfold State.load
    rw [hk]
    cases t.kindAt a <;> rfl
  cases m <;> simp only [addrEA, State.loadInPage, load_pc, State.withPc_x, State.withPc_y]

end Sys2Proof.Machine
end

