-- ==== Sys2Proof/Laws/PerInstr.lean ====
section
/-! SUPPORT. Facts about every instruction as syntax, one lemma per constructor. -/

/-- An instruction's form exists (30_encoding.md R81), its encoding has the length of its mode (R60), and its opcode byte is a
cell of the matrix (R80). -/
def Sys2Proof.Laws.EncodedForm.Statement (i : Sys2Proof.Instr) : Prop :=
  i.wellFormed = true ∧ (Sys2Proof.encode i).length = i.bytes ∧
    ((Sys2Proof.encode i).head?.bind Sys2Proof.lookup).isSome = true

namespace Sys2Proof.Laws

theorem EncodedForm.adcXInd (bb : Byte) : EncodedForm.Statement (.adcXInd bb) := ⟨rfl, rfl, rfl⟩
theorem EncodedForm.adcZpg (ll : Byte) : EncodedForm.Statement (.adcZpg ll) := ⟨rfl, rfl, rfl⟩
theorem EncodedForm.adcImm (imm : Byte) : EncodedForm.Statement (.adcImm imm) := ⟨rfl, rfl, rfl⟩
theorem EncodedForm.adcAbs (hhll : Word) : EncodedForm.Statement (.adcAbs hhll) := ⟨rfl, rfl, rfl⟩
theorem EncodedForm.adcIndY (ll : Byte) : EncodedForm.Statement (.adcIndY ll) := ⟨rfl, rfl, rfl⟩
theorem EncodedForm.adcZpgX (ll : Byte) : EncodedForm.Statement (.adcZpgX ll) := ⟨rfl, rfl, rfl⟩
theorem EncodedForm.adcAbsY (hhll : Word) : EncodedForm.Statement (.adcAbsY hhll) := ⟨rfl, rfl, rfl⟩
theorem EncodedForm.adcAbsX (hhll : Word) : EncodedForm.Statement (.adcAbsX hhll) := ⟨rfl, rfl, rfl⟩
theorem EncodedForm.andXInd (bb : Byte) : EncodedForm.Statement (.andXInd bb) := ⟨rfl, rfl, rfl⟩
theorem EncodedForm.andZpg (ll : Byte) : EncodedForm.Statement (.andZpg ll) := ⟨rfl, rfl, rfl⟩
theorem EncodedForm.andImm (imm : Byte) : EncodedForm.Statement (.andImm imm) := ⟨rfl, rfl, rfl⟩
theorem EncodedForm.andAbs (hhll : Word) : EncodedForm.Statement (.andAbs hhll) := ⟨rfl, rfl, rfl⟩
theorem EncodedForm.andIndY (ll : Byte) : EncodedForm.Statement (.andIndY ll) := ⟨rfl, rfl, rfl⟩
theorem EncodedForm.andZpgX (ll : Byte) : EncodedForm.Statement (.andZpgX ll) := ⟨rfl, rfl, rfl⟩
theorem EncodedForm.andAbsY (hhll : Word) : EncodedForm.Statement (.andAbsY hhll) := ⟨rfl, rfl, rfl⟩
theorem EncodedForm.andAbsX (hhll : Word) : EncodedForm.Statement (.andAbsX hhll) := ⟨rfl, rfl, rfl⟩
theorem EncodedForm.aslZpg (ll : Byte) : EncodedForm.Statement (.aslZpg ll) := ⟨rfl, rfl, rfl⟩
theorem EncodedForm.aslAcc : EncodedForm.Statement .aslAcc := ⟨rfl, rfl, rfl⟩
theorem EncodedForm.aslAbs (hhll : Word) : EncodedForm.Statement (.aslAbs hhll) := ⟨rfl, rfl, rfl⟩
theorem EncodedForm.aslZpgX (ll : Byte) : EncodedForm.Statement (.aslZpgX ll) := ⟨rfl, rfl, rfl⟩
theorem EncodedForm.aslAbsX (hhll : Word) : EncodedForm.Statement (.aslAbsX hhll) := ⟨rfl, rfl, rfl⟩
theorem EncodedForm.bcc (bb : Byte) : EncodedForm.Statement (.bcc bb) := ⟨rfl, rfl, rfl⟩
theorem EncodedForm.bcs (bb : Byte) : EncodedForm.Statement (.bcs bb) := ⟨rfl, rfl, rfl⟩
theorem EncodedForm.beq (bb : Byte) : EncodedForm.Statement (.beq bb) := ⟨rfl, rfl, rfl⟩
theorem EncodedForm.bitZpg (ll : Byte) : EncodedForm.Statement (.bitZpg ll) := ⟨rfl, rfl, rfl⟩
theorem EncodedForm.bitAbs (hhll : Word) : EncodedForm.Statement (.bitAbs hhll) := ⟨rfl, rfl, rfl⟩
theorem EncodedForm.bmi (bb : Byte) : EncodedForm.Statement (.bmi bb) := ⟨rfl, rfl, rfl⟩
theorem EncodedForm.bne (bb : Byte) : EncodedForm.Statement (.bne bb) := ⟨rfl, rfl, rfl⟩
theorem EncodedForm.bpl (bb : Byte) : EncodedForm.Statement (.bpl bb) := ⟨rfl, rfl, rfl⟩
theorem EncodedForm.brk : EncodedForm.Statement .brk := ⟨rfl, rfl, rfl⟩
theorem EncodedForm.bvc (bb : Byte) : EncodedForm.Statement (.bvc bb) := ⟨rfl, rfl, rfl⟩
theorem EncodedForm.bvs (bb : Byte) : EncodedForm.Statement (.bvs bb) := ⟨rfl, rfl, rfl⟩
theorem EncodedForm.clc : EncodedForm.Statement .clc := ⟨rfl, rfl, rfl⟩
theorem EncodedForm.cld : EncodedForm.Statement .cld := ⟨rfl, rfl, rfl⟩
theorem EncodedForm.cli : EncodedForm.Statement .cli := ⟨rfl, rfl, rfl⟩
theorem EncodedForm.clv : EncodedForm.Statement .clv := ⟨rfl, rfl, rfl⟩
theorem EncodedForm.cmpXInd (bb : Byte) : EncodedForm.Statement (.cmpXInd bb) := ⟨rfl, rfl, rfl⟩
theorem EncodedForm.cmpZpg (ll : Byte) : EncodedForm.Statement (.cmpZpg ll) := ⟨rfl, rfl, rfl⟩
theorem EncodedForm.cmpImm (imm : Byte) : EncodedForm.Statement (.cmpImm imm) := ⟨rfl, rfl, rfl⟩
theorem EncodedForm.cmpAbs (hhll : Word) : EncodedForm.Statement (.cmpAbs hhll) := ⟨rfl, rfl, rfl⟩
theorem EncodedForm.cmpIndY (ll : Byte) : EncodedForm.Statement (.cmpIndY ll) := ⟨rfl, rfl, rfl⟩
theorem EncodedForm.cmpZpgX (ll : Byte) : EncodedForm.Statement (.cmpZpgX ll) := ⟨rfl, rfl, rfl⟩
theorem EncodedForm.cmpAbsY (hhll : Word) : EncodedForm.Statement (.cmpAbsY hhll) := ⟨rfl, rfl, rfl⟩
theorem EncodedForm.cmpAbsX (hhll : Word) : EncodedForm.Statement (.cmpAbsX hhll) := ⟨rfl, rfl, rfl⟩
theorem EncodedForm.cpxImm (imm : Byte) : EncodedForm.Statement (.cpxImm imm) := ⟨rfl, rfl, rfl⟩
theorem EncodedForm.cpxZpg (ll : Byte) : EncodedForm.Statement (.cpxZpg ll) := ⟨rfl, rfl, rfl⟩
theorem EncodedForm.cpxAbs (hhll : Word) : EncodedForm.Statement (.cpxAbs hhll) := ⟨rfl, rfl, rfl⟩
theorem EncodedForm.cpyImm (imm : Byte) : EncodedForm.Statement (.cpyImm imm) := ⟨rfl, rfl, rfl⟩
theorem EncodedForm.cpyZpg (ll : Byte) : EncodedForm.Statement (.cpyZpg ll) := ⟨rfl, rfl, rfl⟩
theorem EncodedForm.cpyAbs (hhll : Word) : EncodedForm.Statement (.cpyAbs hhll) := ⟨rfl, rfl, rfl⟩
theorem EncodedForm.decZpg (ll : Byte) : EncodedForm.Statement (.decZpg ll) := ⟨rfl, rfl, rfl⟩
theorem EncodedForm.decAbs (hhll : Word) : EncodedForm.Statement (.decAbs hhll) := ⟨rfl, rfl, rfl⟩
theorem EncodedForm.decZpgX (ll : Byte) : EncodedForm.Statement (.decZpgX ll) := ⟨rfl, rfl, rfl⟩
theorem EncodedForm.decAbsX (hhll : Word) : EncodedForm.Statement (.decAbsX hhll) := ⟨rfl, rfl, rfl⟩
theorem EncodedForm.dex : EncodedForm.Statement .dex := ⟨rfl, rfl, rfl⟩
theorem EncodedForm.dey : EncodedForm.Statement .dey := ⟨rfl, rfl, rfl⟩
theorem EncodedForm.eorXInd (bb : Byte) : EncodedForm.Statement (.eorXInd bb) := ⟨rfl, rfl, rfl⟩
theorem EncodedForm.eorZpg (ll : Byte) : EncodedForm.Statement (.eorZpg ll) := ⟨rfl, rfl, rfl⟩
theorem EncodedForm.eorImm (imm : Byte) : EncodedForm.Statement (.eorImm imm) := ⟨rfl, rfl, rfl⟩
theorem EncodedForm.eorAbs (hhll : Word) : EncodedForm.Statement (.eorAbs hhll) := ⟨rfl, rfl, rfl⟩
theorem EncodedForm.eorIndY (ll : Byte) : EncodedForm.Statement (.eorIndY ll) := ⟨rfl, rfl, rfl⟩
theorem EncodedForm.eorZpgX (ll : Byte) : EncodedForm.Statement (.eorZpgX ll) := ⟨rfl, rfl, rfl⟩
theorem EncodedForm.eorAbsY (hhll : Word) : EncodedForm.Statement (.eorAbsY hhll) := ⟨rfl, rfl, rfl⟩
theorem EncodedForm.eorAbsX (hhll : Word) : EncodedForm.Statement (.eorAbsX hhll) := ⟨rfl, rfl, rfl⟩
theorem EncodedForm.incZpg (ll : Byte) : EncodedForm.Statement (.incZpg ll) := ⟨rfl, rfl, rfl⟩
theorem EncodedForm.incAbs (hhll : Word) : EncodedForm.Statement (.incAbs hhll) := ⟨rfl, rfl, rfl⟩
theorem EncodedForm.incZpgX (ll : Byte) : EncodedForm.Statement (.incZpgX ll) := ⟨rfl, rfl, rfl⟩
theorem EncodedForm.incAbsX (hhll : Word) : EncodedForm.Statement (.incAbsX hhll) := ⟨rfl, rfl, rfl⟩
theorem EncodedForm.inx : EncodedForm.Statement .inx := ⟨rfl, rfl, rfl⟩
theorem EncodedForm.iny : EncodedForm.Statement .iny := ⟨rfl, rfl, rfl⟩
theorem EncodedForm.jmpAbs (hhll : Word) : EncodedForm.Statement (.jmpAbs hhll) := ⟨rfl, rfl, rfl⟩
theorem EncodedForm.jmpInd (hhll : Word) : EncodedForm.Statement (.jmpInd hhll) := ⟨rfl, rfl, rfl⟩
theorem EncodedForm.jsr (hhll : Word) : EncodedForm.Statement (.jsr hhll) := ⟨rfl, rfl, rfl⟩
theorem EncodedForm.ldaXInd (bb : Byte) : EncodedForm.Statement (.ldaXInd bb) := ⟨rfl, rfl, rfl⟩
theorem EncodedForm.ldaZpg (ll : Byte) : EncodedForm.Statement (.ldaZpg ll) := ⟨rfl, rfl, rfl⟩
theorem EncodedForm.ldaImm (imm : Byte) : EncodedForm.Statement (.ldaImm imm) := ⟨rfl, rfl, rfl⟩
theorem EncodedForm.ldaAbs (hhll : Word) : EncodedForm.Statement (.ldaAbs hhll) := ⟨rfl, rfl, rfl⟩
theorem EncodedForm.ldaIndY (ll : Byte) : EncodedForm.Statement (.ldaIndY ll) := ⟨rfl, rfl, rfl⟩
theorem EncodedForm.ldaZpgX (ll : Byte) : EncodedForm.Statement (.ldaZpgX ll) := ⟨rfl, rfl, rfl⟩
theorem EncodedForm.ldaAbsY (hhll : Word) : EncodedForm.Statement (.ldaAbsY hhll) := ⟨rfl, rfl, rfl⟩
theorem EncodedForm.ldaAbsX (hhll : Word) : EncodedForm.Statement (.ldaAbsX hhll) := ⟨rfl, rfl, rfl⟩
theorem EncodedForm.ldxImm (imm : Byte) : EncodedForm.Statement (.ldxImm imm) := ⟨rfl, rfl, rfl⟩
theorem EncodedForm.ldxZpg (ll : Byte) : EncodedForm.Statement (.ldxZpg ll) := ⟨rfl, rfl, rfl⟩
theorem EncodedForm.ldxAbs (hhll : Word) : EncodedForm.Statement (.ldxAbs hhll) := ⟨rfl, rfl, rfl⟩
theorem EncodedForm.ldxZpgY (ll : Byte) : EncodedForm.Statement (.ldxZpgY ll) := ⟨rfl, rfl, rfl⟩
theorem EncodedForm.ldxAbsY (hhll : Word) : EncodedForm.Statement (.ldxAbsY hhll) := ⟨rfl, rfl, rfl⟩
theorem EncodedForm.ldyImm (imm : Byte) : EncodedForm.Statement (.ldyImm imm) := ⟨rfl, rfl, rfl⟩
theorem EncodedForm.ldyZpg (ll : Byte) : EncodedForm.Statement (.ldyZpg ll) := ⟨rfl, rfl, rfl⟩
theorem EncodedForm.ldyAbs (hhll : Word) : EncodedForm.Statement (.ldyAbs hhll) := ⟨rfl, rfl, rfl⟩
theorem EncodedForm.ldyZpgX (ll : Byte) : EncodedForm.Statement (.ldyZpgX ll) := ⟨rfl, rfl, rfl⟩
theorem EncodedForm.ldyAbsX (hhll : Word) : EncodedForm.Statement (.ldyAbsX hhll) := ⟨rfl, rfl, rfl⟩
theorem EncodedForm.lsrZpg (ll : Byte) : EncodedForm.Statement (.lsrZpg ll) := ⟨rfl, rfl, rfl⟩
theorem EncodedForm.lsrAcc : EncodedForm.Statement .lsrAcc := ⟨rfl, rfl, rfl⟩
theorem EncodedForm.lsrAbs (hhll : Word) : EncodedForm.Statement (.lsrAbs hhll) := ⟨rfl, rfl, rfl⟩
theorem EncodedForm.lsrZpgX (ll : Byte) : EncodedForm.Statement (.lsrZpgX ll) := ⟨rfl, rfl, rfl⟩
theorem EncodedForm.lsrAbsX (hhll : Word) : EncodedForm.Statement (.lsrAbsX hhll) := ⟨rfl, rfl, rfl⟩
theorem EncodedForm.nop : EncodedForm.Statement .nop := ⟨rfl, rfl, rfl⟩
theorem EncodedForm.oraXInd (bb : Byte) : EncodedForm.Statement (.oraXInd bb) := ⟨rfl, rfl, rfl⟩
theorem EncodedForm.oraZpg (ll : Byte) : EncodedForm.Statement (.oraZpg ll) := ⟨rfl, rfl, rfl⟩
theorem EncodedForm.oraImm (imm : Byte) : EncodedForm.Statement (.oraImm imm) := ⟨rfl, rfl, rfl⟩
theorem EncodedForm.oraAbs (hhll : Word) : EncodedForm.Statement (.oraAbs hhll) := ⟨rfl, rfl, rfl⟩
theorem EncodedForm.oraIndY (ll : Byte) : EncodedForm.Statement (.oraIndY ll) := ⟨rfl, rfl, rfl⟩
theorem EncodedForm.oraZpgX (ll : Byte) : EncodedForm.Statement (.oraZpgX ll) := ⟨rfl, rfl, rfl⟩
theorem EncodedForm.oraAbsY (hhll : Word) : EncodedForm.Statement (.oraAbsY hhll) := ⟨rfl, rfl, rfl⟩
theorem EncodedForm.oraAbsX (hhll : Word) : EncodedForm.Statement (.oraAbsX hhll) := ⟨rfl, rfl, rfl⟩
theorem EncodedForm.pha : EncodedForm.Statement .pha := ⟨rfl, rfl, rfl⟩
theorem EncodedForm.php : EncodedForm.Statement .php := ⟨rfl, rfl, rfl⟩
theorem EncodedForm.pla : EncodedForm.Statement .pla := ⟨rfl, rfl, rfl⟩
theorem EncodedForm.plp : EncodedForm.Statement .plp := ⟨rfl, rfl, rfl⟩
theorem EncodedForm.rolZpg (ll : Byte) : EncodedForm.Statement (.rolZpg ll) := ⟨rfl, rfl, rfl⟩
theorem EncodedForm.rolAcc : EncodedForm.Statement .rolAcc := ⟨rfl, rfl, rfl⟩
theorem EncodedForm.rolAbs (hhll : Word) : EncodedForm.Statement (.rolAbs hhll) := ⟨rfl, rfl, rfl⟩
theorem EncodedForm.rolZpgX (ll : Byte) : EncodedForm.Statement (.rolZpgX ll) := ⟨rfl, rfl, rfl⟩
theorem EncodedForm.rolAbsX (hhll : Word) : EncodedForm.Statement (.rolAbsX hhll) := ⟨rfl, rfl, rfl⟩
theorem EncodedForm.rorZpg (ll : Byte) : EncodedForm.Statement (.rorZpg ll) := ⟨rfl, rfl, rfl⟩
theorem EncodedForm.rorAcc : EncodedForm.Statement .rorAcc := ⟨rfl, rfl, rfl⟩
theorem EncodedForm.rorAbs (hhll : Word) : EncodedForm.Statement (.rorAbs hhll) := ⟨rfl, rfl, rfl⟩
theorem EncodedForm.rorZpgX (ll : Byte) : EncodedForm.Statement (.rorZpgX ll) := ⟨rfl, rfl, rfl⟩
theorem EncodedForm.rorAbsX (hhll : Word) : EncodedForm.Statement (.rorAbsX hhll) := ⟨rfl, rfl, rfl⟩
theorem EncodedForm.rti : EncodedForm.Statement .rti := ⟨rfl, rfl, rfl⟩
theorem EncodedForm.rts : EncodedForm.Statement .rts := ⟨rfl, rfl, rfl⟩
theorem EncodedForm.sbcXInd (bb : Byte) : EncodedForm.Statement (.sbcXInd bb) := ⟨rfl, rfl, rfl⟩
theorem EncodedForm.sbcZpg (ll : Byte) : EncodedForm.Statement (.sbcZpg ll) := ⟨rfl, rfl, rfl⟩
theorem EncodedForm.sbcImm (imm : Byte) : EncodedForm.Statement (.sbcImm imm) := ⟨rfl, rfl, rfl⟩
theorem EncodedForm.sbcAbs (hhll : Word) : EncodedForm.Statement (.sbcAbs hhll) := ⟨rfl, rfl, rfl⟩
theorem EncodedForm.sbcIndY (ll : Byte) : EncodedForm.Statement (.sbcIndY ll) := ⟨rfl, rfl, rfl⟩
theorem EncodedForm.sbcZpgX (ll : Byte) : EncodedForm.Statement (.sbcZpgX ll) := ⟨rfl, rfl, rfl⟩
theorem EncodedForm.sbcAbsY (hhll : Word) : EncodedForm.Statement (.sbcAbsY hhll) := ⟨rfl, rfl, rfl⟩
theorem EncodedForm.sbcAbsX (hhll : Word) : EncodedForm.Statement (.sbcAbsX hhll) := ⟨rfl, rfl, rfl⟩
theorem EncodedForm.sec : EncodedForm.Statement .sec := ⟨rfl, rfl, rfl⟩
theorem EncodedForm.sed : EncodedForm.Statement .sed := ⟨rfl, rfl, rfl⟩
theorem EncodedForm.sei : EncodedForm.Statement .sei := ⟨rfl, rfl, rfl⟩
theorem EncodedForm.staXInd (bb : Byte) : EncodedForm.Statement (.staXInd bb) := ⟨rfl, rfl, rfl⟩
theorem EncodedForm.staZpg (ll : Byte) : EncodedForm.Statement (.staZpg ll) := ⟨rfl, rfl, rfl⟩
theorem EncodedForm.staAbs (hhll : Word) : EncodedForm.Statement (.staAbs hhll) := ⟨rfl, rfl, rfl⟩
theorem EncodedForm.staIndY (ll : Byte) : EncodedForm.Statement (.staIndY ll) := ⟨rfl, rfl, rfl⟩
theorem EncodedForm.staZpgX (ll : Byte) : EncodedForm.Statement (.staZpgX ll) := ⟨rfl, rfl, rfl⟩
theorem EncodedForm.staAbsY (hhll : Word) : EncodedForm.Statement (.staAbsY hhll) := ⟨rfl, rfl, rfl⟩
theorem EncodedForm.staAbsX (hhll : Word) : EncodedForm.Statement (.staAbsX hhll) := ⟨rfl, rfl, rfl⟩
theorem EncodedForm.stxZpg (ll : Byte) : EncodedForm.Statement (.stxZpg ll) := ⟨rfl, rfl, rfl⟩
theorem EncodedForm.stxAbs (hhll : Word) : EncodedForm.Statement (.stxAbs hhll) := ⟨rfl, rfl, rfl⟩
theorem EncodedForm.stxZpgY (ll : Byte) : EncodedForm.Statement (.stxZpgY ll) := ⟨rfl, rfl, rfl⟩
theorem EncodedForm.styZpg (ll : Byte) : EncodedForm.Statement (.styZpg ll) := ⟨rfl, rfl, rfl⟩
theorem EncodedForm.styAbs (hhll : Word) : EncodedForm.Statement (.styAbs hhll) := ⟨rfl, rfl, rfl⟩
theorem EncodedForm.styZpgX (ll : Byte) : EncodedForm.Statement (.styZpgX ll) := ⟨rfl, rfl, rfl⟩
theorem EncodedForm.tax : EncodedForm.Statement .tax := ⟨rfl, rfl, rfl⟩
theorem EncodedForm.tay : EncodedForm.Statement .tay := ⟨rfl, rfl, rfl⟩
theorem EncodedForm.tsx : EncodedForm.Statement .tsx := ⟨rfl, rfl, rfl⟩
theorem EncodedForm.txa : EncodedForm.Statement .txa := ⟨rfl, rfl, rfl⟩
theorem EncodedForm.txs : EncodedForm.Statement .txs := ⟨rfl, rfl, rfl⟩
theorem EncodedForm.tya : EncodedForm.Statement .tya := ⟨rfl, rfl, rfl⟩

end Sys2Proof.Laws
end

