-- ==== Sys2Proof/Laws/Step.lean ====
section
/-! SUPPORT. What a step can do, said once: an event taken, or one whole instruction executed, or the fault of an illegal
opcode. -/

namespace Sys2Proof.Machine

/-- The fetch moves at most the count of free values. -/
theorem fetch_onlyDraws (s : State) : OnlyDraws s s.fetch.2 := by
  have h0 := load_onlyDraws s s.pc
  have h1 := h0.trans (load_onlyDraws (s.load s.pc).2 (s.pc + 1))
  have h2 := h1.trans (load_onlyDraws ((s.load s.pc).2.load (s.pc + 1)).2 (s.pc + 2))
  unfold State.fetch
  simp only
  split
  · exact h0
  · exact h0
  · exact h1
  · exact h2

/-- With no record of inputs left, nothing is asserted and nothing changes at the boundary. -/
theorem sample_nil {s : State} (h : s.inputs = []) : s.sample = (Inputs.idle, s) := by
  simp [State.sample, h]

/-- A record of inputs is used up; its stores are made and its NMI edge latched. -/
theorem sample_cons {s : State} {now : Inputs} {rest : List Inputs} (h : s.inputs = now :: rest) :
    s.sample = (now, ((s.withInputs rest).withMem (s.mem.writeAll now.stores)).withNmiPending
      (s.nmiPending || now.nmiEdge)) := by
  simp [State.sample, h]

theorem writeAll_wf (ps : List (Word × Byte)) : ∀ m : Memory, m.wf = true → (m.writeAll ps).wf = true := by
  induction ps with
  | nil => exact fun _ h => h
  | cons p rest ih => exact fun m h => ih _ (Memory.wf_write m _ _ h)

theorem sample_wf {s : State} (h : s.mem.wf = true) : s.sample.2.mem.wf = true := by
  cases hi : s.inputs with
  | nil => simpa [sample_nil hi] using h
  | cons now rest => simpa [sample_cons hi] using writeAll_wf now.stores s.mem h

/-- If a step answers a next state, exactly one event was taken at the boundary (60_exceptions.md R218), an instruction among
them. -/
theorem step_cases {s t : State} (h : step s = .next t) :
    (s.sample.2.event s.sample.1 = .reset ∧ t = s.sample.2.takeReset) ∨
    (s.sample.2.event s.sample.1 = .nmi ∧ t = s.sample.2.takeNmi) ∨
    (s.sample.2.event s.sample.1 = .irq ∧ t = s.sample.2.takeIrq) ∨
    (s.sample.2.event s.sample.1 = .instruction ∧
      ∃ i, s.sample.2.fetch.1 = .ok i ∧ exec i s.sample.2.fetch.2 = .next t) := by
  unfold step at h
  simp only at h
  split at h
  · next he => exact .inl ⟨he, by injection h with h; exact h.symm⟩
  · next he => exact .inr (.inl ⟨he, by injection h with h; exact h.symm⟩)
  · next he => exact .inr (.inr (.inl ⟨he, by injection h with h; exact h.symm⟩))
  · next he =>
    split at h
    · exact nomatch h
    · next i f hf => exact .inr (.inr (.inr ⟨he, i, by rw [hf], by rw [hf]; exact h⟩))

/-- A step stops with a fault only on an illegal opcode byte (30_encoding.md R82), provided no instruction faults. -/
theorem step_fault {s : State} {opc : Byte} (he : s.sample.2.event s.sample.1 = .instruction)
    (hf : s.sample.2.fetch.1 = .error opc) : step s = .fault (.illegalOpcode opc) := by
  unfold step
  simp only [he]
  cases hr : s.sample.2.fetch with
  | mk r f =>
    rw [hr] at hf
    cases hf
    rfl

end Sys2Proof.Machine
end

