-- ==== Sys2Proof/Tests/Slice0.lean ====
section
/-! SUPPORT. Small tests. Their expected results are the spec's own: the vectors V<n> of 95_test_vectors.md, the encodings of
spec/opcode_table.json written out, and the examples of the rules. -/

namespace Sys2Proof.Tests
open Sys2Proof Sys2Proof.Machine

/-! ## WellFormed: one ill-formed form for each mode's check (empty cells of 30_encoding.md R81) -/

theorem test_no_lda_impl : formExists .lda .impl = false := by decide
theorem test_no_inc_acc : formExists .inc .acc = false := by decide
theorem test_no_tax_abs : formExists .tax .abs = false := by decide
theorem test_no_sty_absX : formExists .sty .absX = false := by decide
theorem test_no_stx_absY : formExists .stx .absY = false := by decide
theorem test_no_sta_imm : formExists .sta .imm = false := by decide
theorem test_no_jsr_ind : formExists .jsr .ind = false := by decide
theorem test_no_ldx_xInd : formExists .ldx .xInd = false := by decide
theorem test_no_sty_indY : formExists .sty .indY = false := by decide
theorem test_no_jmp_rel : formExists .jmp .rel = false := by decide
theorem test_no_jmp_zpg : formExists .jmp .zpg = false := by decide
theorem test_no_ldx_zpgX : formExists .ldx .zpgX = false := by decide
theorem test_no_lda_zpgY : formExists .lda .zpgY = false := by decide

/-! ## Decoding: every cell of the matrix, its word written out from the table's encoding -/

/-- The instruction the decoder reads from bytes. -/
def readsAs (bs : List Byte) : Option Instr :=
  match decode bs with
  | .ok r => some r.1
  | .error _ => none

/-- Row 00 of the opcode matrix. -/
theorem test_decode_row_0 : [[0b00000000], [0b00000001, 0x12], [0b00000101, 0x12], [0b00000110, 0x12],
     [0b00001000], [0b00001001, 0x12], [0b00001010], [0b00001101, 0x12, 0x34],
     [0b00001110, 0x12, 0x34]].map readsAs =
    [.brk, .oraXInd 0x12, .oraZpg 0x12, .aslZpg 0x12, .php, .oraImm 0x12, .aslAcc,
     .oraAbs 0x3412, .aslAbs 0x3412].map some := by
  decide +kernel

/-- Row 10 of the opcode matrix. -/
theorem test_decode_row_1 : [[0b00010000, 0x12], [0b00010001, 0x12], [0b00010101, 0x12], [0b00010110, 0x12],
     [0b00011000], [0b00011001, 0x12, 0x34], [0b00011101, 0x12, 0x34], [0b00011110, 0x12, 0x34]].map readsAs =
    [.bpl 0x12, .oraIndY 0x12, .oraZpgX 0x12, .aslZpgX 0x12, .clc, .oraAbsY 0x3412, .oraAbsX 0x3412,
     .aslAbsX 0x3412].map some := by
  decide +kernel

/-- Row 20 of the opcode matrix. -/
theorem test_decode_row_2 : [[0b00100000, 0x12, 0x34], [0b00100001, 0x12], [0b00100100, 0x12], [0b00100101, 0x12],
     [0b00100110, 0x12], [0b00101000], [0b00101001, 0x12], [0b00101010],
     [0b00101100, 0x12, 0x34], [0b00101101, 0x12, 0x34], [0b00101110, 0x12, 0x34]].map readsAs =
    [.jsr 0x3412, .andXInd 0x12, .bitZpg 0x12, .andZpg 0x12, .rolZpg 0x12, .plp, .andImm 0x12,
     .rolAcc, .bitAbs 0x3412, .andAbs 0x3412, .rolAbs 0x3412].map some := by
  decide +kernel

/-- Row 30 of the opcode matrix. -/
theorem test_decode_row_3 : [[0b00110000, 0x12], [0b00110001, 0x12], [0b00110101, 0x12], [0b00110110, 0x12],
     [0b00111000], [0b00111001, 0x12, 0x34], [0b00111101, 0x12, 0x34], [0b00111110, 0x12, 0x34]].map readsAs =
    [.bmi 0x12, .andIndY 0x12, .andZpgX 0x12, .rolZpgX 0x12, .sec, .andAbsY 0x3412, .andAbsX 0x3412,
     .rolAbsX 0x3412].map some := by
  decide +kernel

/-- Row 40 of the opcode matrix. -/
theorem test_decode_row_4 : [[0b01000000], [0b01000001, 0x12], [0b01000101, 0x12], [0b01000110, 0x12],
     [0b01001000], [0b01001001, 0x12], [0b01001010], [0b01001100, 0x12, 0x34],
     [0b01001101, 0x12, 0x34], [0b01001110, 0x12, 0x34]].map readsAs =
    [.rti, .eorXInd 0x12, .eorZpg 0x12, .lsrZpg 0x12, .pha, .eorImm 0x12, .lsrAcc,
     .jmpAbs 0x3412, .eorAbs 0x3412, .lsrAbs 0x3412].map some := by
  decide +kernel

/-- Row 50 of the opcode matrix. -/
theorem test_decode_row_5 : [[0b01010000, 0x12], [0b01010001, 0x12], [0b01010101, 0x12], [0b01010110, 0x12],
     [0b01011000], [0b01011001, 0x12, 0x34], [0b01011101, 0x12, 0x34], [0b01011110, 0x12, 0x34]].map readsAs =
    [.bvc 0x12, .eorIndY 0x12, .eorZpgX 0x12, .lsrZpgX 0x12, .cli, .eorAbsY 0x3412, .eorAbsX 0x3412,
     .lsrAbsX 0x3412].map some := by
  decide +kernel

/-- Row 60 of the opcode matrix. -/
theorem test_decode_row_6 : [[0b01100000], [0b01100001, 0x12], [0b01100101, 0x12], [0b01100110, 0x12],
     [0b01101000], [0b01101001, 0x12], [0b01101010], [0b01101100, 0x12, 0x34],
     [0b01101101, 0x12, 0x34], [0b01101110, 0x12, 0x34]].map readsAs =
    [.rts, .adcXInd 0x12, .adcZpg 0x12, .rorZpg 0x12, .pla, .adcImm 0x12, .rorAcc,
     .jmpInd 0x3412, .adcAbs 0x3412, .rorAbs 0x3412].map some := by
  decide +kernel

/-- Row 70 of the opcode matrix. -/
theorem test_decode_row_7 : [[0b01110000, 0x12], [0b01110001, 0x12], [0b01110101, 0x12], [0b01110110, 0x12],
     [0b01111000], [0b01111001, 0x12, 0x34], [0b01111101, 0x12, 0x34], [0b01111110, 0x12, 0x34]].map readsAs =
    [.bvs 0x12, .adcIndY 0x12, .adcZpgX 0x12, .rorZpgX 0x12, .sei, .adcAbsY 0x3412, .adcAbsX 0x3412,
     .rorAbsX 0x3412].map some := by
  decide +kernel

/-- Row 80 of the opcode matrix. -/
theorem test_decode_row_8 : [[0b10000001, 0x12], [0b10000100, 0x12], [0b10000101, 0x12], [0b10000110, 0x12],
     [0b10001000], [0b10001010], [0b10001100, 0x12, 0x34], [0b10001101, 0x12, 0x34],
     [0b10001110, 0x12, 0x34]].map readsAs =
    [.staXInd 0x12, .styZpg 0x12, .staZpg 0x12, .stxZpg 0x12, .dey, .txa, .styAbs 0x3412,
     .staAbs 0x3412, .stxAbs 0x3412].map some := by
  decide +kernel

/-- Row 90 of the opcode matrix. -/
theorem test_decode_row_9 : [[0b10010000, 0x12], [0b10010001, 0x12], [0b10010100, 0x12], [0b10010101, 0x12],
     [0b10010110, 0x12], [0b10011000], [0b10011001, 0x12, 0x34], [0b10011010],
     [0b10011101, 0x12, 0x34]].map readsAs =
    [.bcc 0x12, .staIndY 0x12, .styZpgX 0x12, .staZpgX 0x12, .stxZpgY 0x12, .tya, .staAbsY 0x3412,
     .txs, .staAbsX 0x3412].map some := by
  decide +kernel

/-- Row A0 of the opcode matrix. -/
theorem test_decode_row_A : [[0b10100000, 0x12], [0b10100001, 0x12], [0b10100010, 0x12], [0b10100100, 0x12],
     [0b10100101, 0x12], [0b10100110, 0x12], [0b10101000], [0b10101001, 0x12],
     [0b10101010], [0b10101100, 0x12, 0x34], [0b10101101, 0x12, 0x34], [0b10101110, 0x12, 0x34]].map readsAs =
    [.ldyImm 0x12, .ldaXInd 0x12, .ldxImm 0x12, .ldyZpg 0x12, .ldaZpg 0x12, .ldxZpg 0x12, .tay,
     .ldaImm 0x12, .tax, .ldyAbs 0x3412, .ldaAbs 0x3412, .ldxAbs 0x3412].map some := by
  decide +kernel

/-- Row B0 of the opcode matrix. -/
theorem test_decode_row_B : [[0b10110000, 0x12], [0b10110001, 0x12], [0b10110100, 0x12], [0b10110101, 0x12],
     [0b10110110, 0x12], [0b10111000], [0b10111001, 0x12, 0x34], [0b10111010],
     [0b10111100, 0x12, 0x34], [0b10111101, 0x12, 0x34], [0b10111110, 0x12, 0x34]].map readsAs =
    [.bcs 0x12, .ldaIndY 0x12, .ldyZpgX 0x12, .ldaZpgX 0x12, .ldxZpgY 0x12, .clv, .ldaAbsY 0x3412,
     .tsx, .ldyAbsX 0x3412, .ldaAbsX 0x3412, .ldxAbsY 0x3412].map some := by
  decide +kernel

/-- Row C0 of the opcode matrix. -/
theorem test_decode_row_C : [[0b11000000, 0x12], [0b11000001, 0x12], [0b11000100, 0x12], [0b11000101, 0x12],
     [0b11000110, 0x12], [0b11001000], [0b11001001, 0x12], [0b11001010],
     [0b11001100, 0x12, 0x34], [0b11001101, 0x12, 0x34], [0b11001110, 0x12, 0x34]].map readsAs =
    [.cpyImm 0x12, .cmpXInd 0x12, .cpyZpg 0x12, .cmpZpg 0x12, .decZpg 0x12, .iny, .cmpImm 0x12,
     .dex, .cpyAbs 0x3412, .cmpAbs 0x3412, .decAbs 0x3412].map some := by
  decide +kernel

/-- Row D0 of the opcode matrix. -/
theorem test_decode_row_D : [[0b11010000, 0x12], [0b11010001, 0x12], [0b11010101, 0x12], [0b11010110, 0x12],
     [0b11011000], [0b11011001, 0x12, 0x34], [0b11011101, 0x12, 0x34], [0b11011110, 0x12, 0x34]].map readsAs =
    [.bne 0x12, .cmpIndY 0x12, .cmpZpgX 0x12, .decZpgX 0x12, .cld, .cmpAbsY 0x3412, .cmpAbsX 0x3412,
     .decAbsX 0x3412].map some := by
  decide +kernel

/-- Row E0 of the opcode matrix. -/
theorem test_decode_row_E : [[0b11100000, 0x12], [0b11100001, 0x12], [0b11100100, 0x12], [0b11100101, 0x12],
     [0b11100110, 0x12], [0b11101000], [0b11101001, 0x12], [0b11101010],
     [0b11101100, 0x12, 0x34], [0b11101101, 0x12, 0x34], [0b11101110, 0x12, 0x34]].map readsAs =
    [.cpxImm 0x12, .sbcXInd 0x12, .cpxZpg 0x12, .sbcZpg 0x12, .incZpg 0x12, .inx, .sbcImm 0x12,
     .nop, .cpxAbs 0x3412, .sbcAbs 0x3412, .incAbs 0x3412].map some := by
  decide +kernel

/-- Row F0 of the opcode matrix. -/
theorem test_decode_row_F : [[0b11110000, 0x12], [0b11110001, 0x12], [0b11110101, 0x12], [0b11110110, 0x12],
     [0b11111000], [0b11111001, 0x12, 0x34], [0b11111101, 0x12, 0x34], [0b11111110, 0x12, 0x34]].map readsAs =
    [.beq 0x12, .sbcIndY 0x12, .sbcZpgX 0x12, .incZpgX 0x12, .sed, .sbcAbsY 0x3412, .sbcAbsX 0x3412,
     .incAbsX 0x3412].map some := by
  decide +kernel

/-- The 105 illegal opcode bytes (R82): none decodes. -/
theorem test_illegal_bytes : [0x02, 0x03, 0x04, 0x07, 0x0B, 0x0C, 0x0F, 0x12, 0x13, 0x14, 0x17, 0x1A, 0x1B, 0x1C, 0x1F,
     0x22, 0x23, 0x27, 0x2B, 0x2F, 0x32, 0x33, 0x34, 0x37, 0x3A, 0x3B, 0x3C, 0x3F, 0x42, 0x43,
     0x44, 0x47, 0x4B, 0x4F, 0x52, 0x53, 0x54, 0x57, 0x5A, 0x5B, 0x5C, 0x5F, 0x62, 0x63, 0x64,
     0x67, 0x6B, 0x6F, 0x72, 0x73, 0x74, 0x77, 0x7A, 0x7B, 0x7C, 0x7F, 0x80, 0x82, 0x83, 0x87,
     0x89, 0x8B, 0x8F, 0x92, 0x93, 0x97, 0x9B, 0x9C, 0x9E, 0x9F, 0xA3, 0xA7, 0xAB, 0xAF, 0xB2,
     0xB3, 0xB7, 0xBB, 0xBF, 0xC2, 0xC3, 0xC7, 0xCB, 0xCF, 0xD2, 0xD3, 0xD4, 0xD7, 0xDA, 0xDB,
     0xDC, 0xDF, 0xE2, 0xE3, 0xE7, 0xEB, 0xEF, 0xF2, 0xF3, 0xF4, 0xF7, 0xFA, 0xFB, 0xFC, 0xFF].all
    (fun b => (lookup b).isNone) = true := by decide +kernel

/-- No two cells of the matrix have one opcode byte. -/
theorem test_matrix_distinct : (matrix.map OpRow.opcode).Nodup := by decide +kernel

/-- The matrix has 151 cells. -/
theorem test_matrix_size : matrix.length = 151 := by decide +kernel

/-! ## One step: the vectors of 95_test_vectors.md -/

/-- All flags 0. -/
def noFlags : Flags := ⟨false, false, false, false, false, false⟩

/-- "Unless a row says otherwise the instruction is at $0600, SP = $FF" and every register and flag not named is 0. -/
def start : State := { State.reset with sp := 0xFF, flags := noFlags }

/-- A memory with the bytes named; every other byte 0. -/
def image (cells : List (Word × Byte)) : Memory := Memory.writeAll [] cells

/-- Whether one step answers a next state of which `p` holds. -/
def after (s : State) (p : State → Bool) : Bool :=
  match step s with
  | .next t => p t
  | _ => false

/-- V3: ADC #$FF. -/
theorem test_v3 : after { start with pc := 0x0600, a := 0xFF, flags := { noFlags with c := true }, mem := image [(0x0600, 0x69), (0x0601, 0xFF)] }
    (fun t => t.a == 0xFF && t.flags.n == true && t.flags.c == true && t.pc == 0x0602) = true := by decide

/-- V9: ADC $10. -/
theorem test_v9 : after { start with pc := 0x0600, a := 0x20, flags := { noFlags with c := true }, mem := image [(0x0010, 0x22), (0x0600, 0x65), (0x0601, 0x10)] }
    (fun t => t.a == 0x43 && t.flags.c == false && t.pc == 0x0602) = true := by decide

/-- V10: ADC ($F0,X). -/
theorem test_v10 : after { start with pc := 0x0600, a := 0x01, x := 0x0F, mem := image [(0x0000, 0x03), (0x00FF, 0x00), (0x0300, 0x41), (0x0600, 0x61), (0x0601, 0xF0)] }
    (fun t => t.a == 0x42 && t.pc == 0x0602) = true := by decide

/-- V13: SBC #$00. -/
theorem test_v13 : after { start with pc := 0x0600, a := 0x00, mem := image [(0x0600, 0xE9), (0x0601, 0x00)] }
    (fun t => t.a == 0xFF && t.flags.n == true && t.pc == 0x0602) = true := by decide

/-- V19: SBC $1234,Y. -/
theorem test_v19 : after { start with pc := 0x0600, a := 0x10, y := 0x02, flags := { noFlags with c := true }, mem := image [(0x1236, 0x0F), (0x0600, 0xF9), (0x0601, 0x34), (0x0602, 0x12)] }
    (fun t => t.a == 0x01 && t.pc == 0x0603) = true := by decide

/-- V20: ADC #$01. -/
theorem test_v20 : after { start with pc := 0x0600, a := 0x19, flags := { noFlags with d := true }, mem := image [(0x0600, 0x69), (0x0601, 0x01)] }
    (fun t => t.a == 0x20 && t.pc == 0x0602) = true := by decide

/-- V26: SBC #$01. -/
theorem test_v26 : after { start with pc := 0x0600, a := 0x00, flags := { noFlags with d := true, c := true }, mem := image [(0x0600, 0xE9), (0x0601, 0x01)] }
    (fun t => t.a == 0x99 && t.flags.c == false && t.pc == 0x0602) = true := by decide

/-- V33: CMP #$00. -/
theorem test_v33 : after { start with pc := 0x0600, a := 0x80, flags := { noFlags with v := true }, mem := image [(0x0600, 0xC9), (0x0601, 0x00)] }
    (fun t => t.flags.n == true && t.flags.v == true && t.flags.c == true && t.pc == 0x0602) = true := by decide

/-- V35: CPX $10. -/
theorem test_v35 : after { start with pc := 0x0600, x := 0x10, mem := image [(0x0010, 0x20), (0x0600, 0xE4), (0x0601, 0x10)] }
    (fun t => t.flags.n == true && t.pc == 0x0602) = true := by decide

/-- V36: CPY $1234. -/
theorem test_v36 : after { start with pc := 0x0600, y := 0xFF, mem := image [(0x1234, 0xFF), (0x0600, 0xCC), (0x0601, 0x34), (0x0602, 0x12)] }
    (fun t => t.flags.z == true && t.flags.c == true && t.pc == 0x0603) = true := by decide

/-- V37: CMP #$05. -/
theorem test_v37 : after { start with pc := 0x0600, a := 0x10, flags := { noFlags with d := true }, mem := image [(0x0600, 0xC9), (0x0601, 0x05)] }
    (fun t => t.flags.c == true && t.pc == 0x0602) = true := by decide

/-- V38: INC $10. -/
theorem test_v38 : after { start with pc := 0x0600, mem := image [(0x0010, 0xFF), (0x0600, 0xE6), (0x0601, 0x10)] }
    (fun t => t.flags.z == true && t.mem.read 0x0010 == 0x00 && t.pc == 0x0602) = true := by decide

/-- V39: INC $10. -/
theorem test_v39 : after { start with pc := 0x0600, flags := { noFlags with c := true }, mem := image [(0x0010, 0x7F), (0x0600, 0xE6), (0x0601, 0x10)] }
    (fun t => t.flags.n == true && t.mem.read 0x0010 == 0x80 && t.pc == 0x0602) = true := by decide

/-- V40: DEC $10. -/
theorem test_v40 : after { start with pc := 0x0600, mem := image [(0x0010, 0x00), (0x0600, 0xC6), (0x0601, 0x10)] }
    (fun t => t.flags.n == true && t.mem.read 0x0010 == 0xFF && t.pc == 0x0602) = true := by decide

/-- V41: DEC $10. -/
theorem test_v41 : after { start with pc := 0x0600, mem := image [(0x0010, 0x01), (0x0600, 0xC6), (0x0601, 0x10)] }
    (fun t => t.flags.z == true && t.mem.read 0x0010 == 0x00 && t.pc == 0x0602) = true := by decide

/-- V42: DEC $1234. -/
theorem test_v42 : after { start with pc := 0x0600, mem := image [(0x1234, 0x80), (0x0600, 0xCE), (0x0601, 0x34), (0x0602, 0x12)] }
    (fun t => t.flags.n == false && t.flags.z == false && t.mem.read 0x1234 == 0x7F && t.pc == 0x0603) = true := by decide

/-- V43: INC $F0,X. -/
theorem test_v43 : after { start with pc := 0x0600, x := 0x20, mem := image [(0x0010, 0x41), (0x0600, 0xF6), (0x0601, 0xF0)] }
    (fun t => t.flags.n == false && t.flags.z == false && t.mem.read 0x0010 == 0x42 && t.pc == 0x0602) = true := by decide

/-- V44: INX. -/
theorem test_v44 : after { start with pc := 0x0600, x := 0xFF, mem := image [(0x0600, 0xE8)] }
    (fun t => t.x == 0x00 && t.flags.z == true && t.pc == 0x0601) = true := by decide

/-- V45: INY. -/
theorem test_v45 : after { start with pc := 0x0600, y := 0x7F, mem := image [(0x0600, 0xC8)] }
    (fun t => t.y == 0x80 && t.flags.n == true && t.pc == 0x0601) = true := by decide

/-- V46: DEX. -/
theorem test_v46 : after { start with pc := 0x0600, x := 0x00, mem := image [(0x0600, 0xCA)] }
    (fun t => t.x == 0xFF && t.flags.n == true && t.pc == 0x0601) = true := by decide

/-- V47: DEY. -/
theorem test_v47 : after { start with pc := 0x0600, y := 0x01, mem := image [(0x0600, 0x88)] }
    (fun t => t.y == 0x00 && t.flags.z == true && t.pc == 0x0601) = true := by decide

/-- V48: AND #$0F. -/
theorem test_v48 : after { start with pc := 0x0600, a := 0xF0, mem := image [(0x0600, 0x29), (0x0601, 0x0F)] }
    (fun t => t.a == 0x00 && t.flags.z == true && t.pc == 0x0602) = true := by decide

/-- V49: AND #$AA. -/
theorem test_v49 : after { start with pc := 0x0600, a := 0xCC, mem := image [(0x0600, 0x29), (0x0601, 0xAA)] }
    (fun t => t.a == 0x88 && t.flags.n == true && t.pc == 0x0602) = true := by decide

/-- V50: ORA #$81. -/
theorem test_v50 : after { start with pc := 0x0600, a := 0x0C, mem := image [(0x0600, 0x09), (0x0601, 0x81)] }
    (fun t => t.a == 0x8D && t.flags.n == true && t.pc == 0x0602) = true := by decide

/-- V51: ORA #$00. -/
theorem test_v51 : after { start with pc := 0x0600, a := 0x00, flags := { noFlags with n := true }, mem := image [(0x0600, 0x09), (0x0601, 0x00)] }
    (fun t => t.flags.n == false && t.flags.z == true && t.pc == 0x0602) = true := by decide

/-- V52: EOR #$FF. -/
theorem test_v52 : after { start with pc := 0x0600, a := 0x55, mem := image [(0x0600, 0x49), (0x0601, 0xFF)] }
    (fun t => t.a == 0xAA && t.flags.n == true && t.pc == 0x0602) = true := by decide

/-- V53: EOR #$55. -/
theorem test_v53 : after { start with pc := 0x0600, a := 0x55, mem := image [(0x0600, 0x49), (0x0601, 0x55)] }
    (fun t => t.a == 0x00 && t.flags.z == true && t.pc == 0x0602) = true := by decide

/-- V54: AND ($10),Y. -/
theorem test_v54 : after { start with pc := 0x0600, a := 0xFF, y := 0xFF, mem := image [(0x0010, 0x02), (0x0011, 0x20), (0x2101, 0x7E), (0x0600, 0x31), (0x0601, 0x10)] }
    (fun t => t.a == 0x7E && t.pc == 0x0602) = true := by decide

/-- V55: BIT $10. -/
theorem test_v55 : after { start with pc := 0x0600, a := 0x01, mem := image [(0x0010, 0xC0), (0x0600, 0x24), (0x0601, 0x10)] }
    (fun t => t.flags.n == true && t.flags.v == true && t.flags.z == true && t.pc == 0x0602) = true := by decide

/-- V56: BIT $10. -/
theorem test_v56 : after { start with pc := 0x0600, a := 0xFF, flags := { noFlags with n := true, v := true, z := true }, mem := image [(0x0010, 0x3F), (0x0600, 0x24), (0x0601, 0x10)] }
    (fun t => t.flags.n == false && t.flags.v == false && t.flags.z == false && t.pc == 0x0602) = true := by decide

/-- V57: BIT $1234. -/
theorem test_v57 : after { start with pc := 0x0600, a := 0x00, mem := image [(0x1234, 0x80), (0x0600, 0x2C), (0x0601, 0x34), (0x0602, 0x12)] }
    (fun t => t.flags.n == true && t.flags.z == true && t.pc == 0x0603) = true := by decide

/-- V58: ASL A. -/
theorem test_v58 : after { start with pc := 0x0600, a := 0x81, mem := image [(0x0600, 0x0A)] }
    (fun t => t.a == 0x02 && t.flags.c == true && t.pc == 0x0601) = true := by decide

/-- V59: ASL A. -/
theorem test_v59 : after { start with pc := 0x0600, a := 0x80, mem := image [(0x0600, 0x0A)] }
    (fun t => t.a == 0x00 && t.flags.z == true && t.flags.c == true && t.pc == 0x0601) = true := by decide

/-- V61: ASL $10. -/
theorem test_v61 : after { start with pc := 0x0600, mem := image [(0x0010, 0xFF), (0x0600, 0x06), (0x0601, 0x10)] }
    (fun t => t.flags.n == true && t.flags.c == true && t.mem.read 0x0010 == 0xFE && t.pc == 0x0602) = true := by decide

/-- V64: LSR A. -/
theorem test_v64 : after { start with pc := 0x0600, a := 0x01, mem := image [(0x0600, 0x4A)] }
    (fun t => t.a == 0x00 && t.flags.z == true && t.flags.c == true && t.pc == 0x0601) = true := by decide

/-- V65: LSR $1234,X. -/
theorem test_v65 : after { start with pc := 0x0600, x := 0x01, flags := { noFlags with c := true }, mem := image [(0x1235, 0x80), (0x0600, 0x5E), (0x0601, 0x34), (0x0602, 0x12)] }
    (fun t => t.flags.c == false && t.mem.read 0x1235 == 0x40 && t.pc == 0x0603) = true := by decide

/-- V66: ROL A. -/
theorem test_v66 : after { start with pc := 0x0600, a := 0x80, flags := { noFlags with c := true }, mem := image [(0x0600, 0x2A)] }
    (fun t => t.a == 0x01 && t.flags.c == true && t.pc == 0x0601) = true := by decide

/-- V67: ROL A. -/
theorem test_v67 : after { start with pc := 0x0600, a := 0x80, mem := image [(0x0600, 0x2A)] }
    (fun t => t.a == 0x00 && t.flags.z == true && t.flags.c == true && t.pc == 0x0601) = true := by decide

/-- V68: ROL $10. -/
theorem test_v68 : after { start with pc := 0x0600, flags := { noFlags with c := true }, mem := image [(0x0010, 0x7F), (0x0600, 0x26), (0x0601, 0x10)] }
    (fun t => t.flags.n == true && t.flags.c == false && t.mem.read 0x0010 == 0xFF && t.pc == 0x0602) = true := by decide

/-- V69: ROR A. -/
theorem test_v69 : after { start with pc := 0x0600, a := 0x01, flags := { noFlags with c := true }, mem := image [(0x0600, 0x6A)] }
    (fun t => t.a == 0x80 && t.flags.n == true && t.pc == 0x0601) = true := by decide

/-- V70: ROR A. -/
theorem test_v70 : after { start with pc := 0x0600, a := 0x01, mem := image [(0x0600, 0x6A)] }
    (fun t => t.a == 0x00 && t.flags.z == true && t.flags.c == true && t.pc == 0x0601) = true := by decide

/-- V71: ROR $10,X. -/
theorem test_v71 : after { start with pc := 0x0600, x := 0x05, flags := { noFlags with c := true }, mem := image [(0x0015, 0x00), (0x0600, 0x76), (0x0601, 0x10)] }
    (fun t => t.flags.n == true && t.flags.c == false && t.mem.read 0x0015 == 0x80 && t.pc == 0x0602) = true := by decide

/-- V72: BCC $0606. -/
theorem test_v72 : after { start with pc := 0x0600, mem := image [(0x0600, 0x90), (0x0601, 0x04)] }
    (fun t => t.pc == 0x0606) = true := by decide

/-- V73: BCC $0606. -/
theorem test_v73 : after { start with pc := 0x0600, flags := { noFlags with c := true }, mem := image [(0x0600, 0x90), (0x0601, 0x04)] }
    (fun t => t.pc == 0x0602) = true := by decide

/-- V74: BCS $05FE. -/
theorem test_v74 : after { start with pc := 0x0600, flags := { noFlags with c := true }, mem := image [(0x0600, 0xB0), (0x0601, 0xFC)] }
    (fun t => t.pc == 0x05FE) = true := by decide

/-- V75: BEQ $0681. -/
theorem test_v75 : after { start with pc := 0x0600, flags := { noFlags with z := true }, mem := image [(0x0600, 0xF0), (0x0601, 0x7F)] }
    (fun t => t.pc == 0x0681) = true := by decide

/-- V76: BMI $0582. -/
theorem test_v76 : after { start with pc := 0x0600, flags := { noFlags with n := true }, mem := image [(0x0600, 0x30), (0x0601, 0x80)] }
    (fun t => t.pc == 0x0582) = true := by decide

/-- V77: BNE $0600. -/
theorem test_v77 : after { start with pc := 0x0600, mem := image [(0x0600, 0xD0), (0x0601, 0xFE)] }
    (fun t => t.pc == 0x0600) = true := by decide

/-- V78: BNE $0600. -/
theorem test_v78 : after { start with pc := 0x0600, flags := { noFlags with z := true }, mem := image [(0x0600, 0xD0), (0x0601, 0xFE)] }
    (fun t => t.pc == 0x0602) = true := by decide

/-- V79: BPL $FF92. -/
theorem test_v79 : after { start with pc := 0x0010, mem := image [(0x0010, 0x10), (0x0011, 0x80)] }
    (fun t => t.pc == 0xFF92) = true := by decide

/-- V80: BVC $0602. -/
theorem test_v80 : after { start with pc := 0x0600, mem := image [(0x0600, 0x50), (0x0601, 0x00)] }
    (fun t => t.pc == 0x0602) = true := by decide

/-- V81: BVS $0000. -/
theorem test_v81 : after { start with pc := 0xFFFD, flags := { noFlags with v := true }, mem := image [(0xFFFD, 0x70), (0xFFFE, 0x01)] }
    (fun t => t.pc == 0x0000) = true := by decide

/-- V82: BVS $0000. -/
theorem test_v82 : after { start with pc := 0xFFFD, mem := image [(0xFFFD, 0x70), (0xFFFE, 0x01)] }
    (fun t => t.pc == 0xFFFF) = true := by decide

/-- V83: JMP $1234. -/
theorem test_v83 : after { start with pc := 0x0600, mem := image [(0x0600, 0x4C), (0x0601, 0x34), (0x0602, 0x12)] }
    (fun t => t.pc == 0x1234) = true := by decide

/-- V84: JMP ($0280). -/
theorem test_v84 : after { start with pc := 0x0600, mem := image [(0x0280, 0x78), (0x0281, 0x56), (0x0600, 0x6C), (0x0601, 0x80), (0x0602, 0x02)] }
    (fun t => t.pc == 0x5678) = true := by decide

/-- V85: JMP ($02FF). -/
theorem test_v85 : after { start with pc := 0x0600, mem := image [(0x0200, 0x56), (0x02FF, 0x34), (0x0300, 0x12), (0x0600, 0x6C), (0x0601, 0xFF), (0x0602, 0x02)] }
    (fun t => t.pc == 0x5634) = true := by decide

/-- V86: JMP $0600. -/
theorem test_v86 : after { start with pc := 0x0600, mem := image [(0x0600, 0x4C), (0x0601, 0x00), (0x0602, 0x06)] }
    (fun t => t.pc == 0x0600) = true := by decide

/-- V87: JSR $1234. -/
theorem test_v87 : after { start with pc := 0x0600, sp := 0xFF, mem := image [(0x0600, 0x20), (0x0601, 0x34), (0x0602, 0x12)] }
    (fun t => t.sp == 0xFD && t.mem.read 0x01FE == 0x02 && t.mem.read 0x01FF == 0x06 && t.pc == 0x1234) = true := by decide

/-- V88: JSR $1234. -/
theorem test_v88 : after { start with pc := 0x0600, sp := 0x00, mem := image [(0x0600, 0x20), (0x0601, 0x34), (0x0602, 0x12)] }
    (fun t => t.sp == 0xFE && t.mem.read 0x0100 == 0x06 && t.mem.read 0x01FF == 0x02 && t.pc == 0x1234) = true := by decide

/-- V90: RTS. -/
theorem test_v90 : after { start with pc := 0x0600, sp := 0xFD, mem := image [(0x01FE, 0x02), (0x01FF, 0x06), (0x0600, 0x60)] }
    (fun t => t.sp == 0xFF && t.pc == 0x0603) = true := by decide

/-- V91: RTS. -/
theorem test_v91 : after { start with pc := 0x0600, sp := 0xFE, mem := image [(0x0100, 0xFF), (0x01FF, 0xFF), (0x0600, 0x60)] }
    (fun t => t.sp == 0x00 && t.pc == 0x0000) = true := by decide

/-- V92: BRK. -/
theorem test_v92 : after { start with pc := 0x0600, flags := { noFlags with c := true }, mem := image [(0xFFFE, 0x00), (0xFFFF, 0x80), (0x0600, 0x00)] }
    (fun t => t.sp == 0xFC && t.flags.i == true && t.mem.read 0x01FD == 0x31 && t.mem.read 0x01FE == 0x02 && t.mem.read 0x01FF == 0x06 && t.pc == 0x8000) = true := by decide

/-- V93: BRK. -/
theorem test_v93 : after { start with pc := 0x0600, sp := 0x01, flags := { noFlags with n := true, v := true, d := true, i := true, z := true, c := true }, mem := image [(0xFFFE, 0x34), (0xFFFF, 0x12), (0x0600, 0x00)] }
    (fun t => t.sp == 0xFE && t.mem.read 0x0100 == 0x02 && t.mem.read 0x0101 == 0x06 && t.mem.read 0x01FF == 0xFF && t.pc == 0x1234) = true := by decide

/-- V94: RTI. -/
theorem test_v94 : after { start with pc := 0x8000, sp := 0xFC, flags := { noFlags with i := true }, mem := image [(0x01FD, 0x31), (0x01FE, 0x02), (0x01FF, 0x06), (0x8000, 0x40)] }
    (fun t => t.sp == 0xFF && t.flags.i == false && t.flags.c == true && t.pc == 0x0602) = true := by decide

/-- V95: RTI. -/
theorem test_v95 : after { start with pc := 0x8000, sp := 0xFD, mem := image [(0x0100, 0x12), (0x01FE, 0xFF), (0x01FF, 0x34), (0x8000, 0x40)] }
    (fun t => t.sp == 0x00 && t.flags.n == true && t.flags.v == true && t.flags.d == true && t.flags.i == true && t.flags.z == true && t.flags.c == true && t.pc == 0x1234) = true := by decide

/-- V96: CLC. -/
theorem test_v96 : after { start with pc := 0x0600, flags := { noFlags with c := true }, mem := image [(0x0600, 0x18)] }
    (fun t => t.flags.c == false && t.pc == 0x0601) = true := by decide

/-- V97: SEC. -/
theorem test_v97 : after { start with pc := 0x0600, mem := image [(0x0600, 0x38)] }
    (fun t => t.flags.c == true && t.pc == 0x0601) = true := by decide

/-- V98: CLD. -/
theorem test_v98 : after { start with pc := 0x0600, flags := { noFlags with d := true }, mem := image [(0x0600, 0xD8)] }
    (fun t => t.flags.d == false && t.pc == 0x0601) = true := by decide

/-- V99: SED. -/
theorem test_v99 : after { start with pc := 0x0600, mem := image [(0x0600, 0xF8)] }
    (fun t => t.flags.d == true && t.pc == 0x0601) = true := by decide

/-- V100: CLI. -/
theorem test_v100 : after { start with pc := 0x0600, flags := { noFlags with i := true }, mem := image [(0x0600, 0x58)] }
    (fun t => t.flags.i == false && t.pc == 0x0601) = true := by decide

/-- V101: SEI. -/
theorem test_v101 : after { start with pc := 0x0600, mem := image [(0x0600, 0x78)] }
    (fun t => t.flags.i == true && t.pc == 0x0601) = true := by decide

/-- V102: CLV. -/
theorem test_v102 : after { start with pc := 0x0600, flags := { noFlags with v := true }, mem := image [(0x0600, 0xB8)] }
    (fun t => t.flags.v == false && t.pc == 0x0601) = true := by decide

/-- V103: NOP. -/
theorem test_v103 : after { start with pc := 0x0600, a := 0x12, flags := { noFlags with n := true, v := true, d := true, i := true, z := true, c := true }, mem := image [(0x0600, 0xEA)] }
    (fun t => t.pc == 0x0601) = true := by decide

/-- V104: LDA #$00. -/
theorem test_v104 : after { start with pc := 0x0600, a := 0x55, flags := { noFlags with n := true }, mem := image [(0x0600, 0xA9), (0x0601, 0x00)] }
    (fun t => t.a == 0x00 && t.flags.n == false && t.flags.z == true && t.pc == 0x0602) = true := by decide

/-- V105: LDA #$80. -/
theorem test_v105 : after { start with pc := 0x0600, mem := image [(0x0600, 0xA9), (0x0601, 0x80)] }
    (fun t => t.a == 0x80 && t.flags.n == true && t.pc == 0x0602) = true := by decide

/-- V106: LDA $10. -/
theorem test_v106 : after { start with pc := 0x0600, mem := image [(0x0010, 0x7F), (0x0600, 0xA5), (0x0601, 0x10)] }
    (fun t => t.a == 0x7F && t.pc == 0x0602) = true := by decide

/-- V107: LDA $F0,X. -/
theorem test_v107 : after { start with pc := 0x0600, x := 0x20, mem := image [(0x0010, 0x33), (0x0110, 0x99), (0x0600, 0xB5), (0x0601, 0xF0)] }
    (fun t => t.a == 0x33 && t.pc == 0x0602) = true := by decide

/-- V108: LDA $1234. -/
theorem test_v108 : after { start with pc := 0x0600, mem := image [(0x1234, 0x01), (0x0600, 0xAD), (0x0601, 0x34), (0x0602, 0x12)] }
    (fun t => t.a == 0x01 && t.pc == 0x0603) = true := by decide

/-- V109: LDA $12F0,X. -/
theorem test_v109 : after { start with pc := 0x0600, x := 0x10, mem := image [(0x1300, 0x44), (0x0600, 0xBD), (0x0601, 0xF0), (0x0602, 0x12)] }
    (fun t => t.a == 0x44 && t.pc == 0x0603) = true := by decide

/-- V110: LDA $FFFF,X. -/
theorem test_v110 : after { start with pc := 0x0600, x := 0x02, mem := image [(0x0001, 0x66), (0x0600, 0xBD), (0x0601, 0xFF), (0x0602, 0xFF)] }
    (fun t => t.a == 0x66 && t.pc == 0x0603) = true := by decide

/-- V111: LDA $1234,Y. -/
theorem test_v111 : after { start with pc := 0x0600, y := 0xFF, mem := image [(0x1333, 0x88), (0x0600, 0xB9), (0x0601, 0x34), (0x0602, 0x12)] }
    (fun t => t.a == 0x88 && t.flags.n == true && t.pc == 0x0603) = true := by decide

/-- V112: LDA ($20,X). -/
theorem test_v112 : after { start with pc := 0x0600, x := 0x04, mem := image [(0x0024, 0x00), (0x0025, 0x02), (0x0200, 0x5A), (0x0600, 0xA1), (0x0601, 0x20)] }
    (fun t => t.a == 0x5A && t.pc == 0x0602) = true := by decide

/-- V113: LDA ($FF),Y. -/
theorem test_v113 : after { start with pc := 0x0600, y := 0x01, mem := image [(0x0000, 0x12), (0x00FF, 0xFF), (0x1300, 0x77), (0x0600, 0xB1), (0x0601, 0xFF)] }
    (fun t => t.a == 0x77 && t.pc == 0x0602) = true := by decide

/-- V114: LDX $FF,Y. -/
theorem test_v114 : after { start with pc := 0x0600, y := 0x01, mem := image [(0x0000, 0xB6), (0x0600, 0xB6), (0x0601, 0xFF)] }
    (fun t => t.x == 0xB6 && t.flags.n == true && t.pc == 0x0602) = true := by decide

/-- V115: LDX $1234,Y. -/
theorem test_v115 : after { start with pc := 0x0600, x := 0x09, y := 0x01, mem := image [(0x1235, 0x00), (0x0600, 0xBE), (0x0601, 0x34), (0x0602, 0x12)] }
    (fun t => t.x == 0x00 && t.flags.z == true && t.pc == 0x0603) = true := by decide

/-- V116: LDY $0300,X. -/
theorem test_v116 : after { start with pc := 0x0600, x := 0x01, mem := image [(0x0301, 0x7F), (0x0600, 0xBC), (0x0601, 0x00), (0x0602, 0x03)] }
    (fun t => t.y == 0x7F && t.pc == 0x0603) = true := by decide

/-- V117: STA ($20,X). -/
theorem test_v117 : after { start with pc := 0x0600, a := 0x42, x := 0x04, mem := image [(0x0024, 0x00), (0x0025, 0x02), (0x0600, 0x81), (0x0601, 0x20)] }
    (fun t => t.mem.read 0x0200 == 0x42 && t.pc == 0x0602) = true := by decide

/-- V118: STA ($10),Y. -/
theorem test_v118 : after { start with pc := 0x0600, a := 0x42, y := 0x10, mem := image [(0x0010, 0xF8), (0x0011, 0x02), (0x0600, 0x91), (0x0601, 0x10)] }
    (fun t => t.mem.read 0x0308 == 0x42 && t.pc == 0x0602) = true := by decide

/-- V119: STA $1234,X. -/
theorem test_v119 : after { start with pc := 0x0600, a := 0x00, x := 0x01, flags := { noFlags with n := true }, mem := image [(0x1235, 0xEE), (0x0600, 0x9D), (0x0601, 0x34), (0x0602, 0x12)] }
    (fun t => t.mem.read 0x1235 == 0x00 && t.pc == 0x0603) = true := by decide

/-- V120: STX $F8,Y. -/
theorem test_v120 : after { start with pc := 0x0600, x := 0x07, y := 0x10, mem := image [(0x0600, 0x96), (0x0601, 0xF8)] }
    (fun t => t.mem.read 0x0008 == 0x07 && t.pc == 0x0602) = true := by decide

/-- V121: STY $1234. -/
theorem test_v121 : after { start with pc := 0x0600, y := 0x09, mem := image [(0x0600, 0x8C), (0x0601, 0x34), (0x0602, 0x12)] }
    (fun t => t.mem.read 0x1234 == 0x09 && t.pc == 0x0603) = true := by decide

/-- V122: STA $0602. -/
theorem test_v122 : after { start with pc := 0x0600, a := 0xEA, mem := image [(0x0600, 0x8D), (0x0601, 0x02), (0x0602, 0x06)] }
    (fun t => t.mem.read 0x0602 == 0xEA && t.pc == 0x0603) = true := by decide

/-- V123: PHA. -/
theorem test_v123 : after { start with pc := 0x0600, a := 0x42, sp := 0xFF, mem := image [(0x0600, 0x48)] }
    (fun t => t.sp == 0xFE && t.mem.read 0x01FF == 0x42 && t.pc == 0x0601) = true := by decide

/-- V124: PHA. -/
theorem test_v124 : after { start with pc := 0x0600, a := 0x42, sp := 0x00, mem := image [(0x0600, 0x48)] }
    (fun t => t.sp == 0xFF && t.mem.read 0x0100 == 0x42 && t.pc == 0x0601) = true := by decide

/-- V125: PHP. -/
theorem test_v125 : after { start with pc := 0x0600, sp := 0xFF, mem := image [(0x0600, 0x08)] }
    (fun t => t.sp == 0xFE && t.mem.read 0x01FF == 0x30 && t.pc == 0x0601) = true := by decide

/-- V126: PHP. -/
theorem test_v126 : after { start with pc := 0x0600, sp := 0xFF, flags := { noFlags with n := true, i := true, c := true }, mem := image [(0x0600, 0x08)] }
    (fun t => t.sp == 0xFE && t.mem.read 0x01FF == 0xB5 && t.pc == 0x0601) = true := by decide

/-- V127: PLA. -/
theorem test_v127 : after { start with pc := 0x0600, a := 0x11, sp := 0xFE, mem := image [(0x01FF, 0x00), (0x0600, 0x68)] }
    (fun t => t.a == 0x00 && t.sp == 0xFF && t.flags.z == true && t.pc == 0x0601) = true := by decide

/-- V128: PLA. -/
theorem test_v128 : after { start with pc := 0x0600, sp := 0xFF, mem := image [(0x0100, 0x80), (0x0600, 0x68)] }
    (fun t => t.a == 0x80 && t.sp == 0x00 && t.flags.n == true && t.pc == 0x0601) = true := by decide

/-- V129: PLP. -/
theorem test_v129 : after { start with pc := 0x0600, sp := 0xFE, mem := image [(0x01FF, 0xFF), (0x0600, 0x28)] }
    (fun t => t.sp == 0xFF && t.flags.n == true && t.flags.v == true && t.flags.d == true && t.flags.i == true && t.flags.z == true && t.flags.c == true && t.pc == 0x0601) = true := by decide

/-- V130: PLP. -/
theorem test_v130 : after { start with pc := 0x0600, sp := 0xFE, flags := { noFlags with n := true, v := true, d := true, i := true, z := true, c := true }, mem := image [(0x01FF, 0x30), (0x0600, 0x28)] }
    (fun t => t.sp == 0xFF && t.flags.n == false && t.flags.v == false && t.flags.d == false && t.flags.i == false && t.flags.z == false && t.flags.c == false && t.pc == 0x0601) = true := by decide

/-- V131: TAX. -/
theorem test_v131 : after { start with pc := 0x0600, a := 0x80, mem := image [(0x0600, 0xAA)] }
    (fun t => t.x == 0x80 && t.flags.n == true && t.pc == 0x0601) = true := by decide

/-- V132: TAY. -/
theorem test_v132 : after { start with pc := 0x0600, a := 0x00, y := 0x05, mem := image [(0x0600, 0xA8)] }
    (fun t => t.y == 0x00 && t.flags.z == true && t.pc == 0x0601) = true := by decide

/-- V133: TSX. -/
theorem test_v133 : after { start with pc := 0x0600, sp := 0xFD, mem := image [(0x0600, 0xBA)] }
    (fun t => t.x == 0xFD && t.flags.n == true && t.pc == 0x0601) = true := by decide

/-- V134: TXA. -/
theorem test_v134 : after { start with pc := 0x0600, x := 0x7F, mem := image [(0x0600, 0x8A)] }
    (fun t => t.a == 0x7F && t.pc == 0x0601) = true := by decide

/-- V135: TYA. -/
theorem test_v135 : after { start with pc := 0x0600, a := 0x01, y := 0x00, mem := image [(0x0600, 0x98)] }
    (fun t => t.a == 0x00 && t.flags.z == true && t.pc == 0x0601) = true := by decide

/-- V136, V137: TXS, the part both values of the parameter share. -/
theorem test_v136 : after { start with pc := 0x0600, x := 0xFF, sp := 0x00, mem := image [(0x0600, 0x9A)] }
    (fun t => t.sp == 0xFF && t.pc == 0x0601) = true := by decide

/-! ### Illegal opcodes -/

/-- V140: an illegal opcode. -/
theorem test_v140 : step { start with pc := 0x0600, mem := image [(0x0600, 0x02)] } = .fault (.illegalOpcode 0x02) := by rfl

/-- V141: an illegal opcode. -/
theorem test_v141 : step { start with pc := 0x0600, mem := image [(0x0600, 0xFF), (0x0601, 0x34), (0x0602, 0x12)] } = .fault (.illegalOpcode 0xFF) := by rfl

/-- V142: an illegal opcode. -/
theorem test_v142 : step { start with pc := 0x0600, a := 0x10, flags := { noFlags with c := true }, mem := image [(0x0600, 0xEB), (0x0601, 0x01)] } = .fault (.illegalOpcode 0xEB) := by rfl

/-- V143: an illegal opcode. -/
theorem test_v143 : step { start with pc := 0x0600, mem := image [(0x0600, 0x1A)] } = .fault (.illegalOpcode 0x1A) := by rfl

/-- V144: an illegal opcode. -/
theorem test_v144 : step { start with pc := 0x0600, mem := image [(0x0600, 0x89), (0x0601, 0x00)] } = .fault (.illegalOpcode 0x89) := by rfl

/-! ### Events at a boundary -/

/-- V145: irq_line asserted. -/
theorem test_v145 : after { start with pc := 0x0604, sp := 0xFF, flags := { noFlags with n := true, c := true }, mem := image [(0xFFFA, 0x00), (0xFFFB, 0xA0), (0xFFFC, 0x00), (0xFFFD, 0x80), (0xFFFE, 0x00), (0xFFFF, 0x90), (0x0604, 0xEA)], inputs := [⟨false, false, true, []⟩] }
    (fun t => t.sp == 0xFC && t.flags.i == true && t.mem.read 0x01FD == 0xA1 && t.mem.read 0x01FE == 0x04 && t.mem.read 0x01FF == 0x06 && t.pc == 0x9000) = true := by decide

/-- V146: irq_line asserted. -/
theorem test_v146 : after { start with pc := 0x0604, sp := 0xFF, flags := { noFlags with n := true, i := true, c := true }, mem := image [(0xFFFA, 0x00), (0xFFFB, 0xA0), (0xFFFC, 0x00), (0xFFFD, 0x80), (0xFFFE, 0x00), (0xFFFF, 0x90), (0x0604, 0xEA)], inputs := [⟨false, false, true, []⟩] }
    (fun t => t.pc == 0x0605) = true := by decide

/-- V147: nmi_pending = 1. -/
theorem test_v147 : after { start with pc := 0x0604, sp := 0xFF, flags := { noFlags with n := true, i := true, c := true }, mem := image [(0xFFFA, 0x00), (0xFFFB, 0xA0), (0xFFFC, 0x00), (0xFFFD, 0x80), (0xFFFE, 0x00), (0xFFFF, 0x90), (0x0604, 0xEA)], nmiPending := true, inputs := [⟨false, false, false, []⟩] }
    (fun t => t.sp == 0xFC && t.nmiPending == false && t.mem.read 0x01FD == 0xA5 && t.mem.read 0x01FE == 0x04 && t.mem.read 0x01FF == 0x06 && t.pc == 0xA000) = true := by decide

/-- V148: nmi_pending = 1 and irq_line asserted. -/
theorem test_v148 : after { start with pc := 0x0604, sp := 0xFF, flags := { noFlags with n := true, c := true }, mem := image [(0xFFFA, 0x00), (0xFFFB, 0xA0), (0xFFFC, 0x00), (0xFFFD, 0x80), (0xFFFE, 0x00), (0xFFFF, 0x90), (0x0604, 0xEA)], nmiPending := true, inputs := [⟨false, false, true, []⟩] }
    (fun t => t.sp == 0xFC && t.flags.i == true && t.nmiPending == false && t.mem.read 0x01FD == 0xA1 && t.mem.read 0x01FE == 0x04 && t.mem.read 0x01FF == 0x06 && t.pc == 0xA000) = true := by decide

/-- V149: irq_line asserted. -/
theorem test_v149 : after { start with pc := 0xC0FF, sp := 0x01, flags := { noFlags with v := true, d := true }, mem := image [(0xFFFA, 0x00), (0xFFFB, 0xA0), (0xFFFC, 0x00), (0xFFFD, 0x80), (0xFFFE, 0x00), (0xFFFF, 0x90), (0xC0FF, 0xEA)], inputs := [⟨false, false, true, []⟩] }
    (fun t => t.sp == 0xFE && t.flags.i == true && t.mem.read 0x0100 == 0xFF && t.mem.read 0x0101 == 0xC0 && t.mem.read 0x01FF == 0x68 && t.pc == 0x9000) = true := by decide

/-- V150: irq_line asserted, instruction is CLI. -/
theorem test_v150 : after { start with pc := 0x0604, sp := 0xFF, flags := { noFlags with i := true }, mem := image [(0xFFFA, 0x00), (0xFFFB, 0xA0), (0xFFFC, 0x00), (0xFFFD, 0x80), (0xFFFE, 0x00), (0xFFFF, 0x90), (0x0604, 0x58)], inputs := [⟨false, false, true, []⟩] }
    (fun t => t.flags.i == false && t.pc == 0x0605) = true := by decide

/-- V151: irq_line asserted, instruction is BRK. -/
theorem test_v151 : after { start with pc := 0x0604, sp := 0xFF, flags := { noFlags with i := true }, mem := image [(0xFFFA, 0x00), (0xFFFB, 0xA0), (0xFFFC, 0x00), (0xFFFD, 0x80), (0xFFFE, 0x00), (0xFFFF, 0x90), (0x0604, 0x00)], inputs := [⟨false, false, true, []⟩] }
    (fun t => t.sp == 0xFC && t.mem.read 0x01FD == 0x34 && t.mem.read 0x01FE == 0x06 && t.mem.read 0x01FF == 0x06 && t.pc == 0x9000) = true := by decide

/-- V152: res_line asserted. -/
theorem test_v152 : after { start with pc := 0x0604, a := 0x12, x := 0x34, y := 0x56, sp := 0xFF, flags := { noFlags with n := true, d := true, c := true }, mem := image [(0xFFFA, 0x00), (0xFFFB, 0xA0), (0xFFFC, 0x00), (0xFFFD, 0x80), (0xFFFE, 0x00), (0xFFFF, 0x90), (0x0604, 0xEA)], inputs := [⟨true, false, false, []⟩] }
    (fun t => t.flags.i == true && t.pc == 0x8000) = true := by decide

/-- V153: res_line asserted, nmi_pending = 1, irq_line asserted. -/
theorem test_v153 : after { start with pc := 0x0604, sp := 0xFF, mem := image [(0xFFFA, 0x00), (0xFFFB, 0xA0), (0xFFFC, 0x00), (0xFFFD, 0x80), (0xFFFE, 0x00), (0xFFFF, 0x90), (0x0604, 0xEA)], nmiPending := true, inputs := [⟨true, false, true, []⟩] }
    (fun t => t.flags.i == true && t.nmiPending == false && t.pc == 0x8000) = true := by decide
/-! ## Assembler text: the template of each address mode (30_encoding.md R64, R84) -/

theorem test_text_imm : (Instr.ldaImm 0x07).text = "LDA #$07" := by rfl
theorem test_text_acc : Instr.rolAcc.text = "ROL A" := by rfl
theorem test_text_abs : (Instr.jsr 0x060B).text = "JSR $060B" := by rfl
theorem test_text_absX : (Instr.staAbsX 0x12FF).text = "STA $12FF,X" := by rfl
theorem test_text_ind : (Instr.jmpInd 0x10FF).text = "JMP ($10FF)" := by rfl
theorem test_text_xInd : (Instr.eorXInd 0x70).text = "EOR ($70,X)" := by rfl
theorem test_text_indY : (Instr.ldaIndY 0x70).text = "LDA ($70),Y" := by rfl
theorem test_text_zpgY : (Instr.ldxZpgY 0xA5).text = "LDX $A5,Y" := by rfl

/-! ## Cycles: the footnotes of 70_reset_and_hazards.md R247 and the entries of R248 -/

/-- A starred read in the page of its base: 4 cycles. -/
theorem test_cycles_same_page : cycles (.ldaAbsX 0x12FE) { start with x := 0x01 } = 4 := by decide
/-- One byte further the page is crossed: 5 cycles. -/
theorem test_cycles_other_page : cycles (.ldaAbsX 0x12FF) { start with x := 0x01 } = 5 := by decide
/-- A store takes its printed 5 cycles whether or not the page is crossed. -/
theorem test_cycles_store : cycles (.staAbsX 0x12FF) { start with x := 0x01 } = 5 := by decide
/-- A branch from the last bytes of a page: the next instruction's page counts. -/
theorem test_cycles_branch : cycles (.bne 0x02) { start with pc := 0x06FC } = 4 := by decide
/-- `DEC abs` (90_conflicts.md C6). -/
theorem test_cycles_decAbs : tableCycles (.decAbs 0x1234) = 6 := by rfl
/-- An IRQ entry takes 7 cycles. -/
theorem test_cycles_irq : stepCycles { start with inputs := [⟨false, false, true, []⟩] } = some 7 := by decide

/-! ## The platform's map (20_memory.md R51) and the inputs (R210, D22) -/

/-- ROM at $C000 to $FFFF, a device at $D000. -/
def board : State :=
  { start with platform := [⟨0xD000, 0xD000, .external⟩, ⟨0xC000, 0xFFFF, .rom⟩], mem := image [(0xC000, 0x4C), (0xD001, 0x99)] }

/-- A store to ROM leaves the byte. -/
theorem test_rom_store : after { board with pc := 0x0600, a := 0x55, mem := image [(0x0600, 0x8D), (0x0602, 0xC0), (0xC000, 0x4C)] }
    (fun t => t.mem.read 0xC000 == 0x4C && t.pc == 0x0603) = true := by decide
/-- A read of the device takes one free value. -/
theorem test_device_read : ((board.load 0xD000).2.draws, (board.load 0xD001)) = (1, (0x99, board)) := by rfl
/-- Another agent's store is made before the step and seen by its fetch. -/
theorem test_other_agent : after { start with pc := 0x0600, inputs := [⟨false, false, false, [(0x0600, 0xE8)]⟩] }
    (fun t => t.x == 0x01 && t.pc == 0x0601 && t.inputs == []) = true := by decide
/-- An NMI edge is latched and taken at the same boundary. -/
theorem test_nmi_edge : after { start with pc := 0x0604, sp := 0xFF, mem := image [(0xFFFA, 0x34), (0xFFFB, 0x12)], inputs := [⟨false, true, false, []⟩] }
    (fun t => t.pc == 0x1234 && t.nmiPending == false) = true := by decide

/-! ## Vectors at other addresses than the defaults (00_scope.md R7) -/

/-- BRK with `VEC_IRQ` on the stack slots of the return address: the word is read after the pushes (43_system_flags.md R160). -/
theorem test_vector_in_stack : after { start with pc := 0x0600, vectors := { start.vectors with irq := 0x01FE } }
    (fun t => t.pc == 0x0602 && t.mem.read 0x01FF == 0x06 && t.mem.read 0x01FE == 0x02) = true := by decide
/-- An NMI through a `VEC_NMI` at the top of memory: the high byte lies at $0000 (20_memory.md R48). -/
theorem test_vector_wraps : after { start with pc := 0x0604, nmiPending := true, vectors := { start.vectors with nmi := 0xFFFF }, mem := image [(0x0000, 0x12), (0xFFFF, 0x34)] }
    (fun t => t.pc == 0x1234) = true := by decide
/-- A reset through another `VEC_RES`. -/
theorem test_vector_reset : after { start with vectors := ⟨0x0002, 0x0004, 0x0006⟩, mem := image [(0x0004, 0x34), (0x0005, 0x12)], inputs := [⟨true, false, false, []⟩] }
    (fun t => t.pc == 0x1234 && t.vectors.irq == 0x0006) = true := by decide

/-! ## Reset and the fetch word -/

/-- The first step after reset runs the word stored by `withFetchWord`: LDA #$80. -/
theorem test_first_word : after (State.reset.withFetchWord 16 0x80A9)
    (fun t => t.a == 0x80 && t.flags.n == true && t.pc == 0x0002) = true := by decide
/-- A word shorter than its instruction: the operand bytes are zero. -/
theorem test_short_word : decodeTableWord 8 0x4C = some (.jmpAbs 0x0000) := by decide

/-! ## Witnesses: for every statement with hypotheses, a state and operands that meet them together, at the edges of each clause -/

/-- PC at $FFFE: the three bytes of a JMP run over the top of memory (20_memory.md R44). -/
def atTop : State := { start with pc := 0xFFFE, mem := image [(0xFFFE, 0x4C), (0xFFFF, 0x34), (0x0000, 0x12)] }

theorem witness_DecodedBytesAreItsEncoding : decode [0x6C, 0xFF, 0x10, 0xEA] = .ok (.jmpInd 0x10FF, [0xEA]) := by rfl
theorem witness_StepRunsDecodedInstruction :
    atTop.sample.2.event atTop.sample.1 = .instruction ∧
    (∀ k : Nat, k < (Instr.jmpAbs 0x1234).bytes → atTop.sample.2.plainAt (atTop.pc + BitVec.ofNat 16 k) = true) ∧
    decode [atTop.sample.2.mem.read atTop.pc, atTop.sample.2.mem.read (atTop.pc + 1), atTop.sample.2.mem.read (atTop.pc + 2)]
      = .ok (.jmpAbs 0x1234, []) := ⟨rfl, fun _ _ => rfl, rfl⟩
/-- An illegal byte at the last address. -/
def illegalAtTop : State := { start with pc := 0xFFFF, mem := image [(0xFFFF, 0xFF)] }
theorem witness_OnlyIllegalOpcodesStop :
    illegalAtTop.sample.2.event illegalAtTop.sample.1 = .instruction ∧ illegalAtTop.sample.2.plainAt illegalAtTop.pc = true ∧
    illegalAtTop.sample.2.mem.read illegalAtTop.pc ∈ Claims.illegalBytes ∧
    step illegalAtTop = .fault (.illegalOpcode 0xFF) := ⟨rfl, rfl, by decide, rfl⟩
theorem witness_IllegalBytesAreTheListed105 : (0x02 : Byte) ∈ Claims.illegalBytes ∧ (0xFF : Byte) ∈ Claims.illegalBytes ∧
    (0x00 : Byte) ∉ Claims.illegalBytes ∧ (0xFE : Byte) ∉ Claims.illegalBytes := by decide
/-- The four clauses in turn, each with every input of lower priority asserted too. -/
theorem witness_OneEventInOrder :
    ({ start with nmiPending := true } : State).event ⟨true, true, true, []⟩ = .reset ∧
    ({ start with nmiPending := true } : State).event ⟨false, true, true, []⟩ = .nmi ∧
    start.event ⟨false, false, true, []⟩ = .irq ∧ start.event ⟨false, false, false, []⟩ = .instruction ∧
    ({ start with flags := { noFlags with i := true } } : State).event ⟨false, false, true, []⟩ = .instruction := by decide
/-- IRQ asserted, stack pointer about to wrap, I as given. -/
def irqAsserted (i : Bool) : State :=
  { start with pc := 0x0604, sp := 0x01, flags := { noFlags with i := i }, inputs := [⟨false, false, true, []⟩] }
theorem witness_IrqEntry : ∀ i : Bool,
    (Claims.nowInputs (irqAsserted i)).res = false ∧ (Claims.atBoundary (irqAsserted i)).nmiPending = false ∧
    (Claims.nowInputs (irqAsserted i)).irq = true ∧ (Claims.atBoundary (irqAsserted i)).flags.i = i := by decide
/-- An NMI edge with I set and an IRQ asserted. -/
def nmiEdged : State :=
  { start with sp := 0x00, flags := { noFlags with i := true }, inputs := [⟨false, true, true, []⟩, Inputs.idle] }
theorem witness_NmiLatchAndEntry : nmiEdged.inputs = ⟨false, true, true, []⟩ :: [Inputs.idle] ∧
    (Claims.nowInputs nmiEdged).res = false ∧ (Claims.atBoundary nmiEdged).nmiPending = true := by decide
/-- Reset with an NMI pending and the other inputs asserted. -/
theorem witness_ResetSequence :
    (Claims.nowInputs { start with nmiPending := true, inputs := [⟨true, true, true, []⟩] }).res = true := by rfl
theorem witness_StepKeepsMemoryCanonical :
    Claims.Canonical { start with sp := 0xFF, pc := 0x0600, a := 0x07, mem := image [(0x0600, 0x48), (0xFFFF, 0x01)] } ∧
    after { start with sp := 0xFF, pc := 0x0600, a := 0x07, mem := image [(0x0600, 0x48), (0xFFFF, 0x01)] }
      (fun t => t.mem == [(0x01FF, 0x07), (0x0600, 0x48), (0xFFFF, 0x01)]) = true := ⟨rfl, by decide⟩
theorem witness_CanonicalMemoryIsUnique : (image [(0xFFFF, 0x01), (0x0000, 0x02)]).wf = true ∧
    (image [(0x0000, 0x02), (0x1234, 0x00), (0xFFFF, 0x01)]).wf = true ∧
    image [(0xFFFF, 0x01), (0x0000, 0x02)] = image [(0x0000, 0x02), (0x1234, 0x00), (0xFFFF, 0x01)] := by decide
theorem witness_StepKeepsPlatformAndRom :
    board.kindAt 0xC000 = .rom ∧ board.kindAt 0xFFFF = .rom ∧ board.kindAt 0xBFFF = .ram ∧
    after { board with pc := 0xD001, mem := image [(0xD001, 0xEA)] } (fun t => t.platform == board.platform) = true := by decide
/-- JMP to its own address at the top of memory. -/
def jumpsToSelf : State := { start with pc := 0xFFFE, mem := image [(0xFFFE, 0x4C), (0xFFFF, 0xFE), (0x0000, 0xFF)] }
theorem witness_JumpToSelfIsFixedPoint : jumpsToSelf.inputs = [] ∧ jumpsToSelf.nmiPending = false ∧
    jumpsToSelf.plainAt jumpsToSelf.pc = true ∧ EndOfRun.jumpToSelf.reached jumpsToSelf = true ∧
    jumpsToSelf.plainAt (jumpsToSelf.pc + 1) = true ∧ jumpsToSelf.plainAt (jumpsToSelf.pc + 2) = true := by decide
theorem witness_MemReadMemWrite : board.plainAt 0xC000 = true ∧ board.kindAt 0x0000 = .ram ∧ (0xFFFF : Word) ≠ 0x0000 := by decide
theorem witness_ExternalAddresses : board.kindAt 0xD000 = .external := by rfl
/-- The stack pointer about to wrap: `witness_PushAndPullWord`, and the stack of the statements below. -/
def wrapping : State := { start with pc := 0x0606, sp := 0x00, a := 0x80, flags := { noFlags with v := true, d := true } }
theorem wrapping_stack : wrapping.stackIsRam := fun _ => rfl
theorem witness_PushAndPullWord : wrapping.stackIsRam ∧ (wrapping.push16 0x1234).pull16.1 = 0x1234 := ⟨fun _ => rfl, by decide⟩
theorem witness_IndirectEffectiveAddresses : (∀ z : Byte, start.plainAt (zext16 z) = true) ∧
    (addrEA (.indY 0xFF) { start with y := 0xFF, mem := image [(0x00FF, 0x01), (0x0000, 0xFF)] }).1 = 0x0000 :=
  ⟨fun _ => rfl, by decide⟩
theorem witness_AdcBinary : start.flags.d = false ∧ (⟨0x69, 2, 2, false, .adcImm 0xFF, .imm 0xFF⟩ : Claims.TableRow Source) ∈
    Claims.adcRows 0xFF 0x1234 := ⟨rfl, List.mem_cons_self ..⟩
/-- 99 + 99 + 1 in decimal mode: the largest digits. -/
theorem witness_AdcDecimal : ({ start with a := 0x99, flags := { noFlags with d := true, c := true } } : State).flags.d = true ∧
    Claims.BcdValue 0x99 99 ∧ Claims.BcdValue 0x00 0 :=
  ⟨rfl, ⟨by decide, by decide, by decide⟩, ⟨by decide, by decide, by decide⟩⟩
theorem witness_SbcBinary : start.flags.d = false ∧ (⟨0xE9, 2, 2, false, .sbcImm 0xFF, .imm 0xFF⟩ : Claims.TableRow Source) ∈
    Claims.sbcRows 0xFF 0x1234 := ⟨rfl, List.mem_cons_self ..⟩
/-- 00 - 99 - 1 in decimal mode. -/
theorem witness_SbcDecimal : ({ start with a := 0x00, flags := { noFlags with d := true } } : State).flags.d = true ∧
    Claims.BcdValue 0x00 0 ∧ Claims.BcdValue 0x99 99 :=
  ⟨rfl, ⟨by decide, by decide, by decide⟩, ⟨by decide, by decide, by decide⟩⟩
/-- 127 + 1 overflows, -128 - 1 overflows, with D = 0. -/
theorem witness_OverflowIsSignedOverflow :
    after { start with pc := 0x0600, a := 0x7F, mem := image [(0x0600, 0x69), (0x0601, 0x01)] } (fun t => t.flags.v) = true ∧
    after { start with pc := 0x0600, a := 0x80, flags := { noFlags with c := true }, mem := image [(0x0600, 0xE9), (0x0601, 0x01)] }
      (fun t => t.flags.v) = true := by decide
theorem witness_SbcIsAdcOfComplement : start.flags.d = false ∧ ∃ t, exec (.sbcImm 0x00) start = .next t := ⟨rfl, _, rfl⟩
theorem witness_CarryChainsTwoBytes : start.flags.d = false ∧ ∃ t u, exec (.adcImm 0xFF) { start with a := 0x01 } = .next t ∧
    exec (.adcImm 0x00) { t with a := 0xFF } = .next u ∧ u.flags.c = true := ⟨rfl, _, _, rfl, rfl, by rfl⟩
/-- Both outcomes of a branch, at the largest offsets back and on, from the ends of memory. -/
theorem witness_ConditionalBranches :
    after { start with pc := 0x0000, flags := { noFlags with c := true }, mem := image [(0x0000, 0xB0), (0x0001, 0x80)] }
      (fun t => t.pc == 0xFF82) = true ∧
    after { start with pc := 0xFFFE, flags := { noFlags with c := true }, mem := image [(0xFFFE, 0xB0), (0xFFFF, 0x7F)] }
      (fun t => t.pc == 0x007F) = true ∧
    after { start with pc := 0xFFFE, mem := image [(0xFFFE, 0xB0), (0xFFFF, 0x7F)] } (fun t => t.pc == 0x0000) = true := by decide
/-- Neither push of this JSR goes to its own third byte; one of the pushes of a JSR at $01FD with SP = $FF does. -/
theorem witness_JsrPushesAndJumps : stackAddr wrapping.sp ≠ wrapping.pc + 2 ∧ stackAddr (wrapping.sp - 1) ≠ wrapping.pc + 2 ∧
    jsrOverwrites 0xFF (0x01FD + 2) = true ∧ jsrOverwrites 0x00 (0x01FD + 2) = true := by decide
theorem witness_SubroutineReturns : ∃ u h : State, wrapping.stackIsRam ∧ exec (.jsr 0x060B) wrapping = .next u ∧
    h.platform = u.platform ∧ h.sp = u.sp ∧ h.a ≠ u.a ∧
    (∀ k : Byte, k < 2 → h.mem.read (stackAddr (wrapping.sp - k)) = u.mem.read (stackAddr (wrapping.sp - k))) := by
  refine ⟨jsr 0x060B (wrapping.withPc (wrapping.pc + 3)), (jsr 0x060B (wrapping.withPc (wrapping.pc + 3))).withA 0x55,
    wrapping_stack, rfl, rfl, rfl, by decide, fun _ _ => rfl⟩
/-- What a handler may do: the map, SP and the three stack bytes as the entry left them, A changed. -/
def Handled (u h : State) : Prop :=
  h.platform = u.platform ∧ h.sp = u.sp ∧
    (∀ k : Byte, k < 3 → h.mem.read (stackAddr (wrapping.sp - k)) = u.mem.read (stackAddr (wrapping.sp - k))) ∧ h.a = 0x55
theorem handled_withA (u : State) : Handled u (u.withA 0x55) := ⟨rfl, rfl, fun _ _ => rfl, rfl⟩
/-- A handler that has changed A, after each of the three entries. -/
theorem witness_HandlerReturns : wrapping.stackIsRam ∧
    (∃ u h, exec .brk wrapping = .next u ∧ Handled u h) ∧
    (∃ u h, u = wrapping.takeIrq ∧ Handled u h) ∧ (∃ u h, u = wrapping.takeNmi ∧ Handled u h) :=
  ⟨wrapping_stack, ⟨_, (brk (wrapping.withPc (wrapping.pc + 1))).withA 0x55, rfl, handled_withA _⟩,
    ⟨_, wrapping.takeIrq.withA 0x55, rfl, handled_withA _⟩,
    ⟨_, wrapping.takeNmi.withA 0x55, rfl, handled_withA _⟩⟩
/-- Plain memory, and a device address, as effective addresses. -/
theorem witness_OperandValues : board.plainAt (addrEA (.absX 0xCFFF) { board with x := 0x02 }).1 = true ∧
    board.plainAt (addrEA (.absX 0xCFFF) { board with x := 0x01 }).1 = false := by decide
theorem witness_PullAfterPush : wrapping.stackIsRam ∧ ∃ u, exec .pha wrapping = .next u := ⟨wrapping_stack, _, rfl⟩
/-- The parameters' clauses: one of the two values holds. -/
theorem witness_LsrResults : Config.lsrN = .unchanged ∨ Config.lsrN = .cleared := by
  cases Config.lsrN
  · exact .inl rfl
  · exact .inr rfl
theorem witness_TxsResult : Config.txsFlags = .setsNZ ∨ Config.txsFlags = .none := by
  cases Config.txsFlags
  · exact .inl rfl
  · exact .inr rfl
theorem witness_InstructionsWriteOnlyTheirLine : ∃ t, exec (.incZpg 0xFF) wrapping = .next t ∧ t.mem.read 0x00FF = 0x01 :=
  ⟨_, rfl, by decide⟩
theorem witness_OnlyAdcSbcReadDecimalFlag : (Instr.cmpImm 0x05).mnemonic ∉ [Mnemonic.adc, .sbc, .php, .brk] ∧
    ∃ t, exec (.cmpImm 0x05) wrapping = .next t ∧ t.flags.d = true := ⟨by decide, _, rfl, by decide⟩
/-- One store of each of the two kinds that changes a byte. -/
theorem witness_StoresStayAtTheirAddress :
    (∃ t, exec (.staAbs 0x1234) wrapping = .next t ∧ t.mem.read 0x1234 ≠ wrapping.mem.read 0x1234) ∧
    (∃ t, exec .pha wrapping = .next t ∧ t.mem.read 0x0100 ≠ wrapping.mem.read 0x0100) :=
  ⟨⟨_, rfl, by decide⟩, ⟨_, rfl, by decide⟩⟩
/-- The last address of a page and the first of the next; a branch not taken, taken in its page, taken to another. -/
theorem witness_PageCrossingCycles : (Instr.ldaAbsX 0x12FF).operand = .mem (.absX 0x12FF) ∧
    pageCrossed (.absX 0x12FF) { start with x := 0x00 } = false ∧ pageCrossed (.absX 0x12FF) { start with x := 0x01 } = true ∧
    pageCrossed (.indY 0x10) { start with y := 0xFF, mem := image [(0x0010, 0x00)] } = false ∧
    pageCrossed (.indY 0x10) { start with y := 0xFF, mem := image [(0x0010, 0x01)] } = true ∧
    cycles (.beq 0x7F) start = 2 ∧ cycles (.bne 0x7F) start = 3 ∧ cycles (.bne 0x80) start = 4 := by decide

end Sys2Proof.Tests
end

section
/-! PROOFS. The rule that each instruction performs, named once by mnemonic and operand (30_encoding.md R81), so that a proof
about every instruction has one case for each rule and none for each opcode. -/

namespace Sys2Proof.Proofs
open Sys2Proof Sys2Proof.Machine

/-- The operand that names a source of a reading instruction. -/
def sourceOperand : Source → Operand
  | .imm bb => .imm bb
  | .mem m => .mem m

/-- The operand that names the target of a shift or rotate. -/
def targetOperand : Target → Operand
  | .acc => .acc
  | .mem m => .mem m

/-- `rule` is what an instruction of this mnemonic and operand does once PC is past it. `exec_performs` ties it to `exec`. -/
inductive RuleOf : Mnemonic → Operand → (State → State) → Prop where
  | adc (src : Source) : RuleOf .adc (sourceOperand src) (adc src)
  | sbc (src : Source) : RuleOf .sbc (sourceOperand src) (sbc src)
  | cmp (src : Source) : RuleOf .cmp (sourceOperand src) (compareWith State.a src)
  | cpx (src : Source) : RuleOf .cpx (sourceOperand src) (compareWith State.x src)
  | cpy (src : Source) : RuleOf .cpy (sourceOperand src) (compareWith State.y src)
  | and (src : Source) : RuleOf .and (sourceOperand src) (logicWith (· &&& ·) src)
  | eor (src : Source) : RuleOf .eor (sourceOperand src) (logicWith (· ^^^ ·) src)
  | ora (src : Source) : RuleOf .ora (sourceOperand src) (logicWith (· ||| ·) src)
  | bit (src : Source) : RuleOf .bit (sourceOperand src) (bitTest src)
  | lda (src : Source) : RuleOf .lda (sourceOperand src) (lda src)
  | ldx (src : Source) : RuleOf .ldx (sourceOperand src) (ldx src)
  | ldy (src : Source) : RuleOf .ldy (sourceOperand src) (ldy src)
  | asl (tg : Target) : RuleOf .asl (targetOperand tg) (readWrite tg Flags.asl)
  | lsr (tg : Target) : RuleOf .lsr (targetOperand tg) (readWrite tg Flags.lsr)
  | rol (tg : Target) : RuleOf .rol (targetOperand tg) (readWrite tg Flags.rol)
  | ror (tg : Target) : RuleOf .ror (targetOperand tg) (readWrite tg Flags.ror)
  | inc (m : Addr) : RuleOf .inc (.mem m) (incMem m)
  | dec (m : Addr) : RuleOf .dec (.mem m) (decMem m)
  | sta (m : Addr) : RuleOf .sta (.mem m) (storeAt m State.a)
  | stx (m : Addr) : RuleOf .stx (.mem m) (storeAt m State.x)
  | sty (m : Addr) : RuleOf .sty (.mem m) (storeAt m State.y)
  | bcc (bb : Byte) : RuleOf .bcc (.rel bb) (branchIf (fun f => !f.c) bb)
  | bcs (bb : Byte) : RuleOf .bcs (.rel bb) (branchIf (fun f => f.c) bb)
  | beq (bb : Byte) : RuleOf .beq (.rel bb) (branchIf (fun f => f.z) bb)
  | bmi (bb : Byte) : RuleOf .bmi (.rel bb) (branchIf (fun f => f.n) bb)
  | bne (bb : Byte) : RuleOf .bne (.rel bb) (branchIf (fun f => !f.z) bb)
  | bpl (bb : Byte) : RuleOf .bpl (.rel bb) (branchIf (fun f => !f.n) bb)
  | bvc (bb : Byte) : RuleOf .bvc (.rel bb) (branchIf (fun f => !f.v) bb)
  | bvs (bb : Byte) : RuleOf .bvs (.rel bb) (branchIf (fun f => f.v) bb)
  | jmpAbs (w : Word) : RuleOf .jmp (.mem (.abs w)) (fun s => s.withPc w)
  | jmpInd (w : Word) : RuleOf .jmp (.ind w) (jumpIndirect w)
  | jsr (w : Word) : RuleOf .jsr (.mem (.abs w)) (jsr w)
  | rts : RuleOf .rts .impl rts
  | brk : RuleOf .brk .impl brk
  | rti : RuleOf .rti .impl State.returnFromInterrupt
  | inx : RuleOf .inx .impl inx
  | iny : RuleOf .iny .impl iny
  | dex : RuleOf .dex .impl dex
  | dey : RuleOf .dey .impl dey
  | pha : RuleOf .pha .impl pha
  | php : RuleOf .php .impl php
  | pla : RuleOf .pla .impl pla
  | plp : RuleOf .plp .impl plp
  | tax : RuleOf .tax .impl (fun s => s.putX s.a)
  | tay : RuleOf .tay .impl (fun s => s.putY s.a)
  | tsx : RuleOf .tsx .impl (fun s => s.putX s.sp)
  | txa : RuleOf .txa .impl (fun s => s.putA s.x)
  | txs : RuleOf .txs .impl txs
  | tya : RuleOf .tya .impl (fun s => s.putA s.y)
  | clc : RuleOf .clc .impl (setFlags (fun f => { f with c := false }))
  | cld : RuleOf .cld .impl (setFlags (fun f => { f with d := false }))
  | cli : RuleOf .cli .impl (setFlags (fun f => { f with i := false }))
  | clv : RuleOf .clv .impl (setFlags (fun f => { f with v := false }))
  | sec : RuleOf .sec .impl (setFlags (fun f => { f with c := true }))
  | sed : RuleOf .sed .impl (setFlags (fun f => { f with d := true }))
  | sei : RuleOf .sei .impl (setFlags (fun f => { f with i := true }))
  | nop : RuleOf .nop .impl id

/-- The state in which an instruction's rule is performed: PC is past it (R63). -/
def pastInstr (i : Instr) (s : State) : State := s.withPc (s.pc + BitVec.ofNat 16 i.bytes)

/-- `rule` is what `exec` makes of the instruction in every state. -/
def Performs (i : Instr) (rule : State → State) : Prop :=
  RuleOf i.mnemonic i.operand rule ∧ ∀ s, exec i s = .next (rule (pastInstr i s))

/-- Every instruction performs the rule of its mnemonic and operand; the operand forms of one rule share a case. -/
theorem exec_performs (i : Instr) : ∃ rule, Performs i rule := by
  cases i with
  | adcImm => exact ⟨_, .adc (.imm _), fun _ => rfl⟩
  | adcXInd | adcZpg | adcAbs | adcIndY | adcZpgX | adcAbsY | adcAbsX => exact ⟨_, .adc (.mem _), fun _ => rfl⟩
  | sbcImm => exact ⟨_, .sbc (.imm _), fun _ => rfl⟩
  | sbcXInd | sbcZpg | sbcAbs | sbcIndY | sbcZpgX | sbcAbsY | sbcAbsX => exact ⟨_, .sbc (.mem _), fun _ => rfl⟩
  | cmpImm => exact ⟨_, .cmp (.imm _), fun _ => rfl⟩
  | cmpXInd | cmpZpg | cmpAbs | cmpIndY | cmpZpgX | cmpAbsY | cmpAbsX => exact ⟨_, .cmp (.mem _), fun _ => rfl⟩
  | cpxImm => exact ⟨_, .cpx (.imm _), fun _ => rfl⟩
  | cpxZpg | cpxAbs => exact ⟨_, .cpx (.mem _), fun _ => rfl⟩
  | cpyImm => exact ⟨_, .cpy (.imm _), fun _ => rfl⟩
  | cpyZpg | cpyAbs => exact ⟨_, .cpy (.mem _), fun _ => rfl⟩
  | andImm => exact ⟨_, .and (.imm _), fun _ => rfl⟩
  | andXInd | andZpg | andAbs | andIndY | andZpgX | andAbsY | andAbsX => exact ⟨_, .and (.mem _), fun _ => rfl⟩
  | eorImm => exact ⟨_, .eor (.imm _), fun _ => rfl⟩
  | eorXInd | eorZpg | eorAbs | eorIndY | eorZpgX | eorAbsY | eorAbsX => exact ⟨_, .eor (.mem _), fun _ => rfl⟩
  | oraImm => exact ⟨_, .ora (.imm _), fun _ => rfl⟩
  | oraXInd | oraZpg | oraAbs | oraIndY | oraZpgX | oraAbsY | oraAbsX => exact ⟨_, .ora (.mem _), fun _ => rfl⟩
  | bitZpg | bitAbs => exact ⟨_, .bit (.mem _), fun _ => rfl⟩
  | ldaImm => exact ⟨_, .lda (.imm _), fun _ => rfl⟩
  | ldaXInd | ldaZpg | ldaAbs | ldaIndY | ldaZpgX | ldaAbsY | ldaAbsX => exact ⟨_, .lda (.mem _), fun _ => rfl⟩
  | ldxImm => exact ⟨_, .ldx (.imm _), fun _ => rfl⟩
  | ldxZpg | ldxAbs | ldxZpgY | ldxAbsY => exact ⟨_, .ldx (.mem _), fun _ => rfl⟩
  | ldyImm => exact ⟨_, .ldy (.imm _), fun _ => rfl⟩
  | ldyZpg | ldyAbs | ldyZpgX | ldyAbsX => exact ⟨_, .ldy (.mem _), fun _ => rfl⟩
  | aslAcc => exact ⟨_, .asl .acc, fun _ => rfl⟩
  | aslZpg | aslAbs | aslZpgX | aslAbsX => exact ⟨_, .asl (.mem _), fun _ => rfl⟩
  | lsrAcc => exact ⟨_, .lsr .acc, fun _ => rfl⟩
  | lsrZpg | lsrAbs | lsrZpgX | lsrAbsX => exact ⟨_, .lsr (.mem _), fun _ => rfl⟩
  | rolAcc => exact ⟨_, .rol .acc, fun _ => rfl⟩
  | rolZpg | rolAbs | rolZpgX | rolAbsX => exact ⟨_, .rol (.mem _), fun _ => rfl⟩
  | rorAcc => exact ⟨_, .ror .acc, fun _ => rfl⟩
  | rorZpg | rorAbs | rorZpgX | rorAbsX => exact ⟨_, .ror (.mem _), fun _ => rfl⟩
  | incZpg | incAbs | incZpgX | incAbsX => exact ⟨_, .inc _, fun _ => rfl⟩
  | decZpg | decAbs | decZpgX | decAbsX => exact ⟨_, .dec _, fun _ => rfl⟩
  | staXInd | staZpg | staAbs | staIndY | staZpgX | staAbsY | staAbsX => exact ⟨_, .sta _, fun _ => rfl⟩
  | stxZpg | stxAbs | stxZpgY => exact ⟨_, .stx _, fun _ => rfl⟩
  | styZpg | styAbs | styZpgX => exact ⟨_, .sty _, fun _ => rfl⟩
  | bcc => exact ⟨_, .bcc _, fun _ => rfl⟩
  | bcs => exact ⟨_, .bcs _, fun _ => rfl⟩
  | beq => exact ⟨_, .beq _, fun _ => rfl⟩
  | bmi => exact ⟨_, .bmi _, fun _ => rfl⟩
  | bne => exact ⟨_, .bne _, fun _ => rfl⟩
  | bpl => exact ⟨_, .bpl _, fun _ => rfl⟩
  | bvc => exact ⟨_, .bvc _, fun _ => rfl⟩
  | bvs => exact ⟨_, .bvs _, fun _ => rfl⟩
  | jmpAbs => exact ⟨_, .jmpAbs _, fun _ => rfl⟩
  | jmpInd => exact ⟨_, .jmpInd _, fun _ => rfl⟩
  | jsr => exact ⟨_, .jsr _, fun _ => rfl⟩
  | rts => exact ⟨_, .rts, fun _ => rfl⟩
  | brk => exact ⟨_, .brk, fun _ => rfl⟩
  | rti => exact ⟨_, .rti, fun _ => rfl⟩
  | inx => exact ⟨_, .inx, fun _ => rfl⟩
  | iny => exact ⟨_, .iny, fun _ => rfl⟩
  | dex => exact ⟨_, .dex, fun _ => rfl⟩
  | dey => exact ⟨_, .dey, fun _ => rfl⟩
  | pha => exact ⟨_, .pha, fun _ => rfl⟩
  | php => exact ⟨_, .php, fun _ => rfl⟩
  | pla => exact ⟨_, .pla, fun _ => rfl⟩
  | plp => exact ⟨_, .plp, fun _ => rfl⟩
  | tax => exact ⟨_, .tax, fun _ => rfl⟩
  | tay => exact ⟨_, .tay, fun _ => rfl⟩
  | tsx => exact ⟨_, .tsx, fun _ => rfl⟩
  | txa => exact ⟨_, .txa, fun _ => rfl⟩
  | txs => exact ⟨_, .txs, fun _ => rfl⟩
  | tya => exact ⟨_, .tya, fun _ => rfl⟩
  | clc => exact ⟨_, .clc, fun _ => rfl⟩
  | cld => exact ⟨_, .cld, fun _ => rfl⟩
  | cli => exact ⟨_, .cli, fun _ => rfl⟩
  | clv => exact ⟨_, .clv, fun _ => rfl⟩
  | sec => exact ⟨_, .sec, fun _ => rfl⟩
  | sed => exact ⟨_, .sed, fun _ => rfl⟩
  | sei => exact ⟨_, .sei, fun _ => rfl⟩
  | nop => exact ⟨_, .nop, fun _ => rfl⟩

/-- A next state that `exec` answers is the result of the instruction's rule. -/
theorem exec_next {i : Instr} {s t : State} (h : exec i s = .next t) :
    ∃ rule, Performs i rule ∧ t = rule (pastInstr i s) := by
  obtain ⟨rule, hrule, hexec⟩ := exec_performs i
  exact ⟨rule, ⟨hrule, hexec⟩, Host.Outcome.next.inj (h.symm.trans (hexec s))⟩

end Sys2Proof.Proofs
end

section
/-! PROOFS. The frame of each state update, shared operation and rule (10_state.md R38): which pieces it may change. -/

namespace Sys2Proof.Proofs
open Sys2Proof Sys2Proof.Machine

/-- Only the pieces named may differ; where memory is not named, it is the same list of cells. -/
structure Frame (written : List Part) (s t : State) : Prop where
  keeps : KeepsAllBut written s t
  mem : .mem ∉ written → t.mem = s.mem

theorem part_same_trans {p : Part} {s t u : State} (h : p.same s t) (k : p.same t u) : p.same s u := by
  cases p with
  | mem => exact fun b => (k b).trans (h b)
  | _ => exact Eq.trans k h

theorem Frame.trans {w : List Part} {s t u : State} (h : Frame w s t) (k : Frame w t u) : Frame w s u := by
  obtain ⟨⟨hparts, hmap, hvec, hin⟩, hmem⟩ := h
  obtain ⟨⟨kparts, kmap, kvec, kin⟩, kmem⟩ := k
  exact ⟨⟨fun p hp => part_same_trans (hparts p hp) (kparts p hp), kmap.trans hmap, kvec.trans hvec, kin.trans hin⟩,
    fun hw => (kmem hw).trans (hmem hw)⟩

theorem Frame.mono {w w' : List Part} {s t : State} (h : Frame w s t) (sub : w ⊆ w' := by simp) : Frame w' s t := by
  obtain ⟨⟨hparts, hrest⟩, hmem⟩ := h
  exact ⟨⟨fun p hp => hparts p (fun hw => hp (sub hw)), hrest⟩, fun hw => hmem (fun hm => hw (sub hm))⟩

/-- A move of the count of free values is in the frame of nothing written. -/
theorem frame_of_onlyDraws {w : List Part} {s t : State} (h : OnlyDraws s t) : Frame w s t where
  keeps := by
    refine ⟨fun p _ => ?_, h.platform, h.vectors, h.inputs⟩
    cases p <;> simp [Part.same, h.a, h.x, h.y, h.sp, h.flags, h.mem, h.nmiPending]
  mem := fun _ => h.mem

theorem Frame.after_draws {w : List Part} {s t u : State} (k : Frame w t u) (h : OnlyDraws s t) : Frame w s u :=
  (frame_of_onlyDraws h).trans k

/-! ### State updates -/

theorem frame_withA (s : State) (v : Byte) : Frame [.a] s (s.withA v) :=
  ⟨⟨fun p hp => by cases p <;> simp [Part.same] at hp ⊢, rfl, rfl, rfl⟩, fun _ => rfl⟩

theorem frame_withX (s : State) (v : Byte) : Frame [.x] s (s.withX v) :=
  ⟨⟨fun p hp => by cases p <;> simp [Part.same] at hp ⊢, rfl, rfl, rfl⟩, fun _ => rfl⟩

theorem frame_withY (s : State) (v : Byte) : Frame [.y] s (s.withY v) :=
  ⟨⟨fun p hp => by cases p <;> simp [Part.same] at hp ⊢, rfl, rfl, rfl⟩, fun _ => rfl⟩

theorem frame_withSp (s : State) (v : Byte) : Frame [.sp] s (s.withSp v) :=
  ⟨⟨fun p hp => by cases p <;> simp [Part.same] at hp ⊢, rfl, rfl, rfl⟩, fun _ => rfl⟩

theorem frame_withPc {w : List Part} (s : State) (v : Word) : Frame w s (s.withPc v) :=
  ⟨⟨fun p _ => by cases p <;> simp [Part.same], rfl, rfl, rfl⟩, fun _ => rfl⟩

/-- A write of the flags: each of the six is named or kept. -/
theorem frame_withFlags {w : List Part} (s : State) (f : Flags)
    (n : .n ∈ w ∨ f.n = s.flags.n := by simp) (v : .v ∈ w ∨ f.v = s.flags.v := by simp)
    (d : .d ∈ w ∨ f.d = s.flags.d := by simp) (i : .i ∈ w ∨ f.i = s.flags.i := by simp)
    (z : .z ∈ w ∨ f.z = s.flags.z := by simp) (c : .c ∈ w ∨ f.c = s.flags.c := by simp) :
    Frame w s (s.withFlags f) where
  keeps := by
    refine ⟨fun p hp => ?_, rfl, rfl, rfl⟩
    cases p with
    | n => exact n.resolve_left hp
    | v => exact v.resolve_left hp
    | d => exact d.resolve_left hp
    | i => exact i.resolve_left hp
    | z => exact z.resolve_left hp
    | c => exact c.resolve_left hp
    | mem => exact fun _ => rfl
    | a | x | y | sp | nmi => rfl
  mem := fun _ => rfl

/-! ### Shared operations -/

theorem frame_store (s : State) (a : Word) (v : Byte) : Frame [.mem] s (s.store a v) :=
  ⟨⟨fun p hp => by cases p <;> simp [Part.same] at hp ⊢, by simp, by simp, by simp⟩, fun h => by simp at h⟩

@[simp] theorem push8_flags (s : State) (v : Byte) : (s.push8 v).flags = s.flags := by simp [push8_eq]
@[simp] theorem push16_flags (s : State) (w : Word) : (s.push16 w).flags = s.flags := by simp [State.push16]

theorem frame_push8 (s : State) (v : Byte) : Frame [.sp, .mem] s (s.push8 v) :=
  (frame_store s _ v).mono.trans (frame_withSp _ _).mono

theorem frame_push16 (s : State) (w : Word) : Frame [.sp, .mem] s (s.push16 w) :=
  (frame_push8 s _).trans (frame_push8 _ _)

theorem frame_pull8 (s : State) : Frame [.sp] s s.pull8.2 :=
  (frame_withSp s _).trans (frame_of_onlyDraws (pull8_onlyDraws s))

theorem frame_pull16 (s : State) : Frame [.sp] s s.pull16.2 :=
  (frame_withSp s _).trans (frame_of_onlyDraws (pull16_onlyDraws s))

theorem frame_enter (s : State) (ret : Word) (b : Bool) (vector : Word) :
    Frame [.sp, .i, .mem] s (s.enter ret b vector) := by
  have hpush : Frame [.sp, .mem] s ((s.push16 ret).push8 (s.flags.toByte b)) :=
    (frame_push16 s ret).trans (frame_push8 _ _)
  exact ((hpush.mono.trans (frame_withFlags _ { s.flags with i := true })).trans (frame_withPc _ _)).trans
    (frame_of_onlyDraws (enter_onlyDraws s ret b vector))

theorem frame_putA (s : State) (r : Byte) : Frame [.a, .n, .z] s (s.putA r) :=
  (frame_withA s r).mono.trans (frame_withFlags _ _)

theorem frame_putX (s : State) (r : Byte) : Frame [.x, .n, .z] s (s.putX r) :=
  (frame_withX s r).mono.trans (frame_withFlags _ _)

theorem frame_putY (s : State) (r : Byte) : Frame [.y, .n, .z] s (s.putY r) :=
  (frame_withY s r).mono.trans (frame_withFlags _ _)

/-! ### Rules -/

theorem frame_binaryResult (s : State) (r : Byte × Flags) (hd : r.2.d = s.flags.d) (hi : r.2.i = s.flags.i) :
    Frame [.a, .n, .v, .z, .c] s (binaryResult r s) :=
  (frame_withA s r.1).mono.trans (frame_withFlags _ _ (d := .inr hd) (i := .inr hi))

/-- Whether defined or free, the result of a decimal ADC or SBC is written to A and four flags (40_arithmetic.md R111). -/
theorem frame_decimalResult (s : State) (r : Option (Byte × Bool)) :
    Frame [.a, .n, .v, .z, .c] s (decimalResult r s) := by
  have write : ∀ (t : State) (a : Byte) (f : Flags), OnlyDraws s t → f.d = s.flags.d → f.i = s.flags.i →
      Frame [.a, .n, .v, .z, .c] s ((t.withA a).withFlags f) := fun t a f h hd hi =>
    ((frame_withA t a).mono.trans
      (frame_withFlags _ _ (d := .inr (by simp [h.flags, hd])) (i := .inr (by simp [h.flags, hi])))).after_draws h
  cases r with
  | some p => exact write _ _ _ (((draw1_onlyDraws _).trans (draw1_onlyDraws _)).trans (draw1_onlyDraws _)) rfl rfl
  | none =>
    exact write _ _ _ (((((draw8_onlyDraws _).trans (draw1_onlyDraws _)).trans (draw1_onlyDraws _)).trans
      (draw1_onlyDraws _)).trans (draw1_onlyDraws _)) rfl rfl

/-- ADC and SBC from the state after reading the operand: the decimal result where D = 1, the binary one where D = 0. -/
theorem frame_arithmetic (s : State) (r : Option (Byte × Bool)) (q : Byte × Flags) (hd : q.2.d = s.flags.d)
    (hi : q.2.i = s.flags.i) :
    Frame [.a, .n, .v, .z, .c] s (if s.flags.d then decimalResult r s else binaryResult q s) := by
  split
  · exact frame_decimalResult s r
  · exact frame_binaryResult s q hd hi

theorem frame_adc (src : Source) (s : State) : Frame [.a, .n, .v, .z, .c] s (adc src s) :=
  (frame_arithmetic _ _ _ rfl rfl).after_draws (sourceValue_onlyDraws src s)

theorem frame_sbc (src : Source) (s : State) : Frame [.a, .n, .v, .z, .c] s (sbc src s) :=
  (frame_arithmetic _ _ _ rfl rfl).after_draws (sourceValue_onlyDraws src s)

theorem frame_compareWith (reg : State → Byte) (src : Source) (s : State) :
    Frame [.n, .z, .c] s (compareWith reg src s) :=
  (frame_withFlags _ _).after_draws (sourceValue_onlyDraws src s)

theorem frame_logicWith (op : Byte → Byte → Byte) (src : Source) (s : State) :
    Frame [.a, .n, .z] s (logicWith op src s) :=
  (frame_putA _ _).after_draws (sourceValue_onlyDraws src s)

theorem frame_bitTest (src : Source) (s : State) : Frame [.n, .v, .z] s (bitTest src s) :=
  (frame_withFlags _ _).after_draws (sourceValue_onlyDraws src s)

theorem frame_lda (src : Source) (s : State) : Frame [.a, .n, .z] s (lda src s) :=
  (frame_putA _ _).after_draws (sourceValue_onlyDraws src s)

theorem frame_ldx (src : Source) (s : State) : Frame [.x, .n, .z] s (ldx src s) :=
  (frame_putX _ _).after_draws (sourceValue_onlyDraws src s)

theorem frame_ldy (src : Source) (s : State) : Frame [.y, .n, .z] s (ldy src s) :=
  (frame_putY _ _).after_draws (sourceValue_onlyDraws src s)

/-- The flags `f` gives are in the frame `w`, whatever the operand value. -/
def FlagsWithin (w : List Part) (f : Flags → Byte → Byte × Flags) : Prop :=
  ∀ (s : State) (v : Byte), Frame w s (s.withFlags (f s.flags v).2)

theorem flagsWithin_setNZ {f : Flags → Byte → Byte × Flags} (h : ∀ g v, (f g v).2 = g.setNZ (f g v).1) :
    FlagsWithin [.n, .z] f := fun s v => by
  rw [h]
  exact frame_withFlags s _

theorem flagsWithin_shift {f : Flags → Byte → Byte × Flags}
    (h : ∀ g v, (f g v).2.v = g.v ∧ (f g v).2.d = g.d ∧ (f g v).2.i = g.i) : FlagsWithin [.c, .z, .n] f := fun s v => by
  obtain ⟨hv, hd, hi⟩ := h s.flags v
  exact frame_withFlags s _ (v := .inr hv) (d := .inr hd) (i := .inr hi)

theorem frame_readWrite_acc {w : List Part} {f : Flags → Byte → Byte × Flags} (hf : FlagsWithin w f) (s : State) :
    Frame (.a :: w) s (readWrite .acc f s) :=
  (frame_withA s _).mono.trans ((hf (s.withA _) s.a).mono)

theorem frame_readWrite_mem {w : List Part} {f : Flags → Byte → Byte × Flags} (hf : FlagsWithin w f) (m : Addr)
    (s : State) : Frame (.mem :: w) s (readWrite (.mem m) f s) := by
  have hread := targetRead_onlyDraws (.mem m) s
  have hwrite := hf ((targetRead (.mem m) s).store (addrEA m s).1 (f s.flags (targetValue (.mem m) s)).1)
    (targetValue (.mem m) s)
  rw [store_flags, hread.flags] at hwrite
  rw [readWrite_mem]
  exact ((frame_store _ _ _).mono.trans hwrite.mono).after_draws hread

theorem frame_storeAt (m : Addr) (v : State → Byte) (s : State) : Frame [.mem] s (storeAt m v s) :=
  (frame_store _ _ _).after_draws (addrEA_onlyDraws m s)

theorem frame_branchIf (cond : Flags → Bool) (bb : Byte) (s : State) : Frame [] s (branchIf cond bb s) := by
  unfold branchIf
  split
  · exact frame_withPc _ _
  · exact frame_of_onlyDraws (.refl s)

theorem frame_jumpIndirect (p : Word) (s : State) : Frame [] s (jumpIndirect p s) :=
  (frame_withPc _ _).after_draws (loadInPage_onlyDraws s p)

theorem frame_jsr (target : Word) (s : State) : Frame [.sp, .mem] s (jsr target s) := by
  refine (frame_push16 s (s.pc - 1)).trans ?_
  simp only [jsr]
  split
  · exact (frame_withPc _ _).after_draws (draw8_onlyDraws _)
  · exact frame_withPc _ _

theorem frame_rts (s : State) : Frame [.sp] s (rts s) := (frame_pull16 s).trans (frame_withPc _ _)

theorem frame_pla (s : State) : Frame [.a, .sp, .n, .z] s (pla s) :=
  (frame_pull8 s).mono.trans (frame_putA _ _).mono

theorem frame_plp (s : State) : Frame [.sp, .n, .v, .d, .i, .z, .c] s (plp s) :=
  (frame_pull8 s).mono.trans (frame_withFlags _ _)

theorem frame_returnFromInterrupt (s : State) :
    Frame [.sp, .n, .v, .d, .i, .z, .c] s s.returnFromInterrupt :=
  (((frame_pull8 s).mono.trans (frame_withFlags _ _)).trans (frame_pull16 _).mono).trans (frame_withPc _ _)

theorem frame_txs (s : State) : Frame [.sp, .n, .z] s (txs s) := by
  refine (frame_withSp s s.x).mono.trans ?_
  rcases afterTxs_cases s.flags s.x with h | h <;> (unfold txs; rw [h]; exact frame_withFlags _ _)

/-- Each rule stays in its line of the table of R38. -/
theorem frame_of_ruleOf {i : Instr} {rule : State → State} (h : RuleOf i.mnemonic i.operand rule) (s : State) :
    Frame (writtenParts i) s (rule s) := by
  unfold writtenParts
  generalize i.mnemonic = m, i.operand = o at h
  cases h with
  | adc src => exact frame_adc src s
  | sbc src => exact frame_sbc src s
  | cmp src | cpx src | cpy src => exact frame_compareWith _ src s
  | and src | eor src | ora src => exact frame_logicWith _ src s
  | bit src => exact frame_bitTest src s
  | lda src => exact frame_lda src s
  | ldx src => exact frame_ldx src s
  | ldy src => exact frame_ldy src s
  | asl tg | lsr tg | rol tg | ror tg =>
    cases tg with
    | acc => exact frame_readWrite_acc (flagsWithin_shift fun _ _ => ⟨rfl, rfl, rfl⟩) s
    | mem m => exact frame_readWrite_mem (flagsWithin_shift fun _ _ => ⟨rfl, rfl, rfl⟩) m s
  | inc m | dec m => exact frame_readWrite_mem (flagsWithin_setNZ fun _ _ => rfl) m s
  | sta m | stx m | sty m => exact frame_storeAt m _ s
  | bcc bb | bcs bb | beq bb | bmi bb | bne bb | bpl bb | bvc bb | bvs bb => exact frame_branchIf _ bb s
  | jmpAbs w => exact frame_withPc s w
  | jmpInd w => exact frame_jumpIndirect w s
  | jsr w => exact frame_jsr w s
  | rts => exact frame_rts s
  | brk => exact frame_enter s _ _ _
  | rti => exact frame_returnFromInterrupt s
  | inx | dex | tax | tsx => exact frame_putX s _
  | iny | dey | tay => exact frame_putY s _
  | txa | tya => exact frame_putA s _
  | pha | php => exact frame_push8 s _
  | pla => exact frame_pla s
  | plp => exact frame_plp s
  | txs => exact frame_txs s
  | clc | cld | cli | clv | sec | sed | sei => exact frame_withFlags s _
  | nop => exact frame_of_onlyDraws (.refl s)

/-- Settles O57: PC is moved past the instruction, then its rule stays in its line of the table. -/
theorem instructionsWriteOnlyTheirLine : Obligations.InstructionsWriteOnlyTheirLine := by
  intro i s t h
  obtain ⟨rule, ⟨hrule, -⟩, rfl⟩ := exec_next h
  exact ((frame_withPc s _).trans (frame_of_ruleOf hrule _)).keeps

end Sys2Proof.Proofs
end

section
/-! PROOFS. How each instruction changes memory, said once, and what follows of it: the canonical form is kept (10_state.md R36),
and bytes change only where an instruction stores (44_load_store.md R186). -/

namespace Sys2Proof.Proofs
open Sys2Proof Sys2Proof.Machine Sys2Proof.Claims

/-- The state after pushing the bytes of a list, the first one first. -/
def pushAll (s : State) (vs : List Byte) : State := vs.foldl State.push8 s

@[simp] theorem pushAll_nil (s : State) : pushAll s [] = s := rfl
@[simp] theorem pushAll_cons (s : State) (v : Byte) (vs : List Byte) : pushAll s (v :: vs) = pushAll (s.push8 v) vs := rfl

theorem pushAll_wf (s : State) (vs : List Byte) (h : s.mem.wf = true) : (pushAll s vs).mem.wf = true := by
  induction vs generalizing s with
  | nil => exact h
  | cons v vs ih => exact ih _ (push8_wf s v h)

theorem hiByte_stackAddr (sp : Byte) : hiByte (stackAddr sp) = 0x01 :=
  BitVec.extractLsb'_append_eq_left

theorem push8_read_ne {s : State} {v : Byte} {b : Word} (h : (s.push8 v).mem.read b ≠ s.mem.read b) :
    s.kindAt b = .ram ∧ hiByte b = 0x01 := by
  rw [push8_eq, State.withSp_mem, store_read] at h
  split at h
  · next hb => exact ⟨hb.1 ▸ hb.2, hb.1 ▸ hiByte_stackAddr s.sp⟩
  · exact absurd rfl h

/-- Pushes change bytes in the stack page only (20_memory.md R52), and only where it is RAM. -/
theorem pushAll_read_ne {s : State} {vs : List Byte} {b : Word} (h : (pushAll s vs).mem.read b ≠ s.mem.read b) :
    s.kindAt b = .ram ∧ hiByte b = 0x01 := by
  induction vs generalizing s with
  | nil => exact absurd rfl h
  | cons v vs ih =>
    by_cases hv : (s.push8 v).mem.read b = s.mem.read b
    · have hkind : (s.push8 v).kindAt b = s.kindAt b := kindAt_of_platform (by simp [push8_eq]) b
      exact hkind ▸ ih (by rwa [hv])
    · exact push8_read_ne hv

/-- The entry's memory is that after its three pushes. -/
theorem enter_mem (s : State) (ret : Word) (b : Bool) (vector : Word) :
    (s.enter ret b vector).mem = (pushAll s [hiByte ret, loByte ret, s.flags.toByte b]).mem := by
  rw [(enter_onlyDraws s ret b vector).mem]
  rfl

theorem jsr_mem (target : Word) (s : State) :
    (jsr target s).mem = (pushAll s [hiByte (s.pc - 1), loByte (s.pc - 1)]).mem := by
  simp only [jsr]
  split <;> rfl

/-- A read-modify-write of memory leaves it as one store at the effective address does. -/
theorem readWrite_storesOnce (m : Addr) (f : Flags → Byte → Byte × Flags) (s : State) :
    ∃ v, (readWrite (.mem m) f s).mem = (s.store (addrEA m s).1 v).mem := by
  have h := targetRead_onlyDraws (.mem m) s
  refine ⟨(f s.flags (targetValue (.mem m) s)).1, ?_⟩
  rw [readWrite_mem]
  simp only [State.withFlags_mem, store_eq, State.withMem_mem, h.mem, kindAt_of_platform h.platform]

theorem storeAt_mem (m : Addr) (v : State → Byte) (s : State) :
    (storeAt m v s).mem = (s.store (addrEA m s).1 (v s)).mem := by
  have h := addrEA_onlyDraws m s
  simp only [storeAt_eq, store_eq, State.withMem_mem, h.mem, kindAt_of_platform h.platform]

/-- How the memory of `t` comes from `s` by an instruction of a mnemonic and an operand: not at all, by one store at the
effective address, or by pushes. -/
inductive MemoryChange (mn : Mnemonic) (o : Operand) (s t : State) : Prop where
  | unchanged (h : t.mem = s.mem)
  | stored (m : Addr) (v : Byte) (ho : o = .mem m)
      (hmn : mn ∈ [.asl, .lsr, .rol, .ror, .inc, .dec, .sta, .stx, .sty]) (h : t.mem = (s.store (addrEA m s).1 v).mem)
  | pushed (vs : List Byte) (hmn : mn ∈ [.pha, .php, .jsr, .brk]) (h : t.mem = (pushAll s vs).mem)

/-- A rule whose line of R38 does not name memory leaves it; each of the others stores once or pushes. -/
theorem memoryChange_of_ruleOf {i : Instr} {rule : State → State} (h : RuleOf i.mnemonic i.operand rule) (s : State) :
    MemoryChange i.mnemonic i.operand s (rule s) := by
  by_cases hw : .mem ∈ writtenParts i
  case neg => exact .unchanged ((frame_of_ruleOf h s).mem hw)
  unfold writtenParts at hw
  generalize i.mnemonic = mn, i.operand = o at h hw
  cases h with
  | asl tg | lsr tg | rol tg | ror tg =>
    cases tg with
    | acc => simp [targetOperand] at hw
    | mem m => exact (readWrite_storesOnce m _ s).elim fun v hv => .stored m v rfl (by simp) hv
  | inc m | dec m => exact (readWrite_storesOnce m _ s).elim fun v hv => .stored m v rfl (by simp) hv
  | sta m | stx m | sty m => exact .stored m _ rfl (by simp) (storeAt_mem m _ s)
  | pha => exact .pushed [s.a] (by simp) rfl
  | php => exact .pushed [s.flags.toByte true] (by simp) rfl
  | jsr w => exact .pushed _ (by simp) (jsr_mem w s)
  | brk => exact .pushed _ (by simp) (enter_mem s _ _ _)
  | _ => simp at hw

theorem MemoryChange.wf {mn : Mnemonic} {o : Operand} {s t : State} (h : MemoryChange mn o s t) (hs : s.mem.wf = true) :
    t.mem.wf = true := by
  cases h with
  | unchanged h => rwa [h]
  | stored m v _ _ h => exact h ▸ store_wf s _ v hs
  | pushed vs _ h => exact h ▸ pushAll_wf s vs hs

/-- Every instruction keeps the canonical form. -/
theorem exec_canonical {i : Instr} {s t : State} (h : exec i s = .next t) (hs : Canonical s) : Canonical t := by
  obtain ⟨rule, ⟨hrule, -⟩, rfl⟩ := exec_next h
  exact (memoryChange_of_ruleOf hrule (pastInstr i s)).wf hs

/-- The reset sequence writes no memory (70_reset_and_hazards.md R240). -/
theorem takeReset_mem (s : State) : s.takeReset.mem = s.mem := by
  simp only [State.takeReset, State.draw8, State.draw1, State.withFlags_mem, State.withSp_mem, State.withY_mem,
    State.withX_mem, State.withA_mem, State.withDraws_mem, State.withPc_mem, State.withNmiPending_mem,
    (loadWord_onlyDraws _ _).mem]

theorem interrupt_canonical (s : State) (vector : Word) (hs : Canonical s) : Canonical (s.interrupt vector) := by
  unfold Canonical State.interrupt
  rw [enter_mem]
  exact pushAll_wf s _ hs

/-- Settles O13: the inputs' stores, the reset sequence, an interrupt's entry and every instruction keep the form. -/
theorem stepKeepsMemoryCanonical : Obligations.StepKeepsMemoryCanonical := by
  intro s t hs h
  have hb : Canonical s.sample.2 := sample_wf hs
  rcases step_cases h with ⟨-, rfl⟩ | ⟨-, rfl⟩ | ⟨-, rfl⟩ | ⟨-, i, -, hexec⟩
  · exact (congrArg Memory.wf (takeReset_mem _)).trans hb
  · exact interrupt_canonical _ _ hb
  · exact interrupt_canonical _ _ hb
  · exact exec_canonical hexec ((congrArg Memory.wf (fetch_onlyDraws _).mem).trans hb)

/-- Settles O59: the one store is at the effective address, and pushes stay in the stack page. -/
theorem storesStayAtTheirAddress : Obligations.StoresStayAtTheirAddress := by
  intro i s t b h hne
  obtain ⟨rule, ⟨hrule, -⟩, rfl⟩ := exec_next h
  cases memoryChange_of_ruleOf hrule (pastInstr i s) with
  | unchanged hmem => exact absurd (congrArg (Memory.read · b) hmem) hne
  | stored m v ho hmn hmem =>
    rw [hmem, store_read, pastInstr, addrEA_withPc] at hne
    split at hne
    · next hb => exact ⟨hb.1 ▸ hb.2, .inl ⟨m, ho, hmn, hb.1⟩⟩
    · exact absurd rfl hne
  | pushed vs hmn hmem =>
    rw [hmem] at hne
    obtain ⟨hram, hpage⟩ := pushAll_read_ne (s := pastInstr i s) hne
    exact ⟨hram, .inr ⟨hmn, hpage⟩⟩

end Sys2Proof.Proofs
end

section
/-! PROOFS. One list for one content of memory (10_state.md R36), and the state after reset (R39). -/

namespace Sys2Proof.Proofs
open Sys2Proof Sys2Proof.Machine

/-- Below and at the floor nothing is listed. -/
theorem get_le_floor {f k : Nat} {m : Memory} (hk : k ≤ f) (h : Memory.risingFrom (some f) m = true) :
    Memory.get k m = Config.blankByte := by
  induction m generalizing f with
  | nil => rfl
  | cons c rest ih =>
    obtain ⟨hlt, -, -, hrest⟩ := (Memory.risingFrom_cons _ _ _).1 h
    have hkc : k < c.1 := lt_of_le_of_lt hk (hlt f rfl)
    rw [Memory.get_cons, if_neg hkc.ne', ih hkc.le hrest]

theorem get_lt_head {floor : Option Nat} {c : Host.Cell} {m : Memory} {k : Nat}
    (h : Memory.risingFrom floor (c :: m) = true) (hk : k < c.1) : Memory.get k (c :: m) = Config.blankByte := by
  obtain ⟨-, -, -, hrest⟩ := (Memory.risingFrom_cons _ _ _).1 h
  rw [Memory.get_cons, if_neg hk.ne', get_le_floor hk.le hrest]

/-- The head of a canonical list is seen by a read: a list that holds nothing at its address reads otherwise there. -/
theorem get_head_ne {floor : Option Nat} {c : Host.Cell} {m k : Memory}
    (h : Memory.risingFrom floor (c :: m) = true) (hk : Memory.get c.1 k = Config.blankByte) :
    Memory.get c.1 (c :: m) ≠ Memory.get c.1 k := by
  obtain ⟨-, -, hlisted, -⟩ := (Memory.risingFrom_cons _ _ _).1 h
  simpa [Memory.get_cons, hk] using hlisted

/-- Where lists with one head read the same, so do their tails, which hold nothing at the head's address. -/
theorem get_tail_eq {c : Host.Cell} {m k : Memory} (hm : Memory.risingFrom (some c.1) m = true)
    (hk : Memory.risingFrom (some c.1) k = true) {a : Nat} (same : Memory.get a (c :: m) = Memory.get a (c :: k)) :
    Memory.get a m = Memory.get a k := by
  by_cases ha : a = c.1
  · rw [get_le_floor ha.le hm, get_le_floor ha.le hk]
  · rwa [Memory.get_cons, Memory.get_cons, if_neg (Ne.symm ha), if_neg (Ne.symm ha)] at same

/-- Two rising lists that read the same are equal: a head below the other list's would be read in one of them only, so the
heads agree, and the tails read the same. -/
theorem rising_ext {m k : Memory} {floor floor' : Option Nat} (hm : Memory.risingFrom floor m = true)
    (hk : Memory.risingFrom floor' k = true) (same : ∀ a < 65536, Memory.get a m = Memory.get a k) : m = k := by
  induction m generalizing k floor floor' with
  | nil =>
    cases k with
    | nil => rfl
    | cons d k =>
      obtain ⟨-, hd, -, -⟩ := (Memory.risingFrom_cons _ _ _).1 hk
      exact absurd (same d.1 hd).symm (get_head_ne hk rfl)
  | cons c m ih =>
    obtain ⟨-, hc, -, hrest⟩ := (Memory.risingFrom_cons _ _ _).1 hm
    cases k with
    | nil => exact absurd (same c.1 hc) (get_head_ne hm rfl)
    | cons d k =>
      obtain ⟨-, hd, -, hrest'⟩ := (Memory.risingFrom_cons _ _ _).1 hk
      rcases lt_trichotomy c.1 d.1 with hlt | heq | hgt
      · exact absurd (same c.1 hc) (get_head_ne hm (get_lt_head hk hlt))
      · have hval : c.2 = d.2 := by simpa [Memory.get_cons, heq] using same c.1 hc
        obtain rfl : c = d := Prod.ext heq hval
        rw [ih hrest hrest' fun a ha => get_tail_eq hrest hrest' (same a ha)]
      · exact absurd (same d.1 hd).symm (get_head_ne hk (get_lt_head hm hgt))

/-- Settles O14: the statement's lists rise from no floor, and each address below 65536 is a word's. -/
theorem canonicalMemoryIsUnique : Obligations.CanonicalMemoryIsUnique := by
  intro m k hm hk same
  refine rising_ext hm hk fun a ha => ?_
  have h := same (BitVec.ofNat 16 a)
  simpa [Memory.read, Nat.mod_eq_of_lt ha] using h

/-- Settles O12, from the fields of the reset state. -/
theorem stateAfterReset : Obligations.StateAfterReset := ⟨rfl, rfl, rfl, rfl, reset_mem_wf⟩

end Sys2Proof.Proofs
end

section
/-! PROOFS. The status register as a byte (10_state.md R32, R33, R35). -/

namespace Sys2Proof.Proofs
open Sys2Proof Sys2Proof.Machine

theorem toByte_toNat (f : Flags) (b : Bool) :
    (f.toByte b).toNat = 128 * f.n.toNat + 64 * f.v.toNat + 32 + 16 * b.toNat + 8 * f.d.toNat + 4 * f.i.toNat
      + 2 * f.z.toNat + f.c.toNat := by
  have hn := f.n.toNat_le
  have hv := f.v.toNat_le
  have hb := b.toNat_le
  have hd := f.d.toNat_le
  have hi := f.i.toNat_le
  have hz := f.z.toNat_le
  have hc := f.c.toNat_le
  rw [Flags.toByte, ofNat8_toNat]
  omega

/-- The SR byte bit by bit, bit 0 first. -/
theorem toByte_eq_bits (f : Flags) (b : Bool) :
    f.toByte b = BitVec.ofBoolListLE [f.c, f.z, f.i, f.d, b, true, f.v, f.n] := by
  apply BitVec.eq_of_toNat_eq
  rw [toByte_toNat]
  simp [BitVec.ofBoolListLE]
  omega

theorem toByte_getLsbD (f : Flags) (b : Bool) (k : Nat) :
    (f.toByte b).getLsbD k = [f.c, f.z, f.i, f.d, b, true, f.v, f.n].getD k false := by
  rw [toByte_eq_bits]
  exact BitVec.getLsbD_ofBoolListLE

/-- Loading the six flags from the byte that was made of them gives them back. -/
theorem ofByte_toByte (f : Flags) (b : Bool) : Flags.ofByte (f.toByte b) = f := by
  simp only [Flags.ofByte, toByte_getLsbD]
  rfl

/-- The byte made of loaded flags is the loaded byte with bit 5 set and bit 4 as asked: bit by bit. -/
theorem toByte_ofByte (p : Byte) (b : Bool) :
    (Flags.ofByte p).toByte b = (p &&& 0b11001111) ||| (if b then 0b00110000 else 0b00100000) := by
  refine BitVec.eq_of_getLsbD_eq fun k hk => ?_
  rw [toByte_getLsbD]
  interval_cases k <;> cases b <;> simp [Flags.ofByte]

/-- Settles O21: the byte's value, and the two round trips. -/
theorem statusByte : Obligations.StatusByte := fun f b p =>
  ⟨toByte_toNat f b, ofByte_toByte f b, rfl, toByte_ofByte p b⟩

end Sys2Proof.Proofs
end

section
/-! PROOFS. The decimal flag and what reads it (10_state.md R31). -/

namespace Sys2Proof.Proofs
open Sys2Proof Sys2Proof.Machine

/-! ### No access depends on the flags -/

theorem load_withFlags (s : State) (f : Flags) (a : Word) :
    (s.withFlags f).load a = ((s.load a).1, (s.load a).2.withFlags f) := by
  have hk : (s.withFlags f).kindAt a = s.kindAt a := kindAt_of_platform rfl a
  unfold State.load
  rw [hk]
  cases s.kindAt a <;> rfl

theorem loadInPage_withFlags (s : State) (f : Flags) (p : Word) :
    (s.withFlags f).loadInPage p = ((s.loadInPage p).1, (s.loadInPage p).2.withFlags f) := by
  simp only [State.loadInPage, load_withFlags]

theorem addrEA_withFlags (m : Addr) (s : State) (f : Flags) :
    addrEA m (s.withFlags f) = ((addrEA m s).1, (addrEA m s).2.withFlags f) := by
  cases m <;> simp only [addrEA, loadInPage_withFlags, State.withFlags_x, State.withFlags_y]

theorem sourceValue_withFlags (src : Source) (s : State) (f : Flags) :
    sourceValue src (s.withFlags f) = ((sourceValue src s).1, (sourceValue src s).2.withFlags f) := by
  cases src with
  | imm bb => rfl
  | mem m => simp only [sourceValue, addrEA_withFlags, load_withFlags]

theorem store_withFlags (s : State) (f : Flags) (a : Word) (v : Byte) :
    (s.withFlags f).store a v = (s.store a v).withFlags f := by
  rw [store_eq, store_eq, kindAt_of_platform (s := s) rfl]
  rfl

theorem push8_withFlags (s : State) (f : Flags) (v : Byte) : (s.withFlags f).push8 v = (s.push8 v).withFlags f := by
  simp only [push8_eq, State.withFlags_sp, store_withFlags]
  rfl

theorem push16_withFlags (s : State) (f : Flags) (w : Word) :
    (s.withFlags f).push16 w = (s.push16 w).withFlags f := by
  simp only [State.push16, push8_withFlags]

theorem pull8_withFlags (s : State) (f : Flags) :
    (s.withFlags f).pull8 = (s.pull8.1, s.pull8.2.withFlags f) :=
  load_withFlags (s.withSp (s.sp + 1)) f _

theorem pull16_withFlags (s : State) (f : Flags) :
    (s.withFlags f).pull16 = (s.pull16.1, s.pull16.2.withFlags f) := by
  simp only [State.pull16, pull8_withFlags]

/-! ### Rules that do not read D -/

/-- The flags with D replaced. -/
def decimalAs (d : Bool) (f : Flags) : Flags := { f with d := d }

/-- The state with D replaced. -/
def withDecimal (s : State) (d : Bool) : State := s.withFlags (decimalAs d s.flags)

theorem withDecimal_self (s : State) : withDecimal s s.flags.d = s := rfl

/-- Run from a state and from that state with D replaced, the rule gives states that differ in D at most. -/
def IgnoresDecimal (rule : State → State) : Prop :=
  ∀ (s : State) (d : Bool), ∃ e, rule (withDecimal s d) = withDecimal (rule s) e

/-- A rule that gives the same state with D either way, because it overwrites the flags, ignores D. -/
theorem ignoresDecimal_of_forgets {rule : State → State} (h : ∀ s d, rule (withDecimal s d) = rule s) :
    IgnoresDecimal rule := fun s d => ⟨(rule s).flags.d, (h s d).trans (withDecimal_self (rule s)).symm⟩

/-- A rule that acts on the value and the state of a flag-blind read ignores D when its action does. -/
theorem ignoresDecimal_after {α : Type} {read : State → α × State} {act : α → State → State}
    (blind : ∀ s f, read (s.withFlags f) = ((read s).1, (read s).2.withFlags f))
    (keep : ∀ s, (read s).2.flags = s.flags) (h : ∀ x, IgnoresDecimal (act x)) :
    IgnoresDecimal (fun s => act (read s).1 (read s).2) := by
  intro s d
  obtain ⟨e, he⟩ := h (read s).1 (read s).2 d
  refine ⟨e, ?_⟩
  rw [← he]
  simp only [withDecimal, blind, keep]

theorem ignoresDecimal_source {src : Source} {act : Byte → State → State} (h : ∀ m, IgnoresDecimal (act m)) :
    IgnoresDecimal (fun s => act (sourceValue src s).1 (sourceValue src s).2) :=
  ignoresDecimal_after (sourceValue_withFlags src) (fun s => (sourceValue_onlyDraws src s).flags) h

theorem ignoresDecimal_pull8 {act : Byte → State → State} (h : ∀ m, IgnoresDecimal (act m)) :
    IgnoresDecimal (fun s => act s.pull8.1 s.pull8.2) :=
  ignoresDecimal_after pull8_withFlags (fun s => (pull8_onlyDraws s).flags) h

theorem ignoresDecimal_pull16 {act : Word → State → State} (h : ∀ w, IgnoresDecimal (act w)) :
    IgnoresDecimal (fun s => act s.pull16.1 s.pull16.2) :=
  ignoresDecimal_after pull16_withFlags (fun s => (pull16_onlyDraws s).flags) h

theorem ignoresDecimal_putA (g : State → Byte) (hg : ∀ s d, g (withDecimal s d) = g s) :
    IgnoresDecimal (fun s => s.putA (g s)) := fun s d => ⟨d, by simp only [hg]; rfl⟩

theorem ignoresDecimal_putX (g : State → Byte) (hg : ∀ s d, g (withDecimal s d) = g s) :
    IgnoresDecimal (fun s => s.putX (g s)) := fun s d => ⟨d, by simp only [hg]; rfl⟩

theorem ignoresDecimal_putY (g : State → Byte) (hg : ∀ s d, g (withDecimal s d) = g s) :
    IgnoresDecimal (fun s => s.putY (g s)) := fun s d => ⟨d, by simp only [hg]; rfl⟩

theorem ignoresDecimal_compareWith {reg : State → Byte} (hreg : ∀ s f, reg (s.withFlags f) = reg s) (src : Source) :
    IgnoresDecimal (compareWith reg src) :=
  ignoresDecimal_source (act := fun v s => s.withFlags (s.flags.compare (reg s) v)) fun v s d =>
    ⟨d, by simp only [withDecimal, hreg]; rfl⟩

theorem ignoresDecimal_logicWith (op : Byte → Byte → Byte) (src : Source) : IgnoresDecimal (logicWith op src) :=
  ignoresDecimal_source (act := fun v s => s.putA (op s.a v)) fun _ => ignoresDecimal_putA _ fun _ _ => rfl

theorem ignoresDecimal_bitTest (src : Source) : IgnoresDecimal (bitTest src) :=
  ignoresDecimal_source (act := fun v s => s.withFlags (s.flags.bitTest s.a v)) fun _ _ d => ⟨d, rfl⟩

/-- A shift, rotate, INC or DEC whose result and flags do not read D. -/
theorem ignoresDecimal_readWrite {f : Flags → Byte → Byte × Flags}
    (hf : ∀ d g v, f (decimalAs d g) v = ((f g v).1, decimalAs d (f g v).2)) (tg : Target) :
    IgnoresDecimal (readWrite tg f) := by
  intro s d
  refine ⟨d, ?_⟩
  cases tg with
  | acc => simp only [readWrite_acc, withDecimal, State.withFlags_flags, State.withFlags_a, hf]; rfl
  | mem m =>
    have hblind : ∀ g, targetRead (.mem m) (s.withFlags g) = (targetRead (.mem m) s).withFlags g ∧
        targetValue (.mem m) (s.withFlags g) = targetValue (.mem m) s := fun g => by
      simp only [targetRead, targetValue, addrEA_withFlags, load_withFlags, and_self]
    simp only [readWrite_mem, withDecimal, State.withFlags_flags, hblind, addrEA_withFlags, store_withFlags, hf]
    rfl

theorem ignoresDecimal_storeAt (m : Addr) (v : State → Byte) (hv : ∀ s f, v (s.withFlags f) = v s) :
    IgnoresDecimal (storeAt m v) := by
  intro s d
  refine ⟨d, ?_⟩
  simp only [withDecimal, storeAt_eq, addrEA_withFlags, store_withFlags, hv, store_flags,
    (addrEA_onlyDraws m s).flags]

theorem ignoresDecimal_branchIf (cond : Flags → Bool) (bb : Byte) (hc : ∀ d f, cond (decimalAs d f) = cond f) :
    IgnoresDecimal (branchIf cond bb) := by
  intro s d
  refine ⟨d, ?_⟩
  simp only [branchIf, withDecimal, State.withFlags_flags, hc]
  split <;> rfl

theorem ignoresDecimal_jsr (target : Word) : IgnoresDecimal (jsr target) := by
  intro s d
  refine ⟨d, ?_⟩
  simp only [jsr, withDecimal, State.withFlags_pc, State.withFlags_sp, push16_withFlags]
  split
  · simp only [State.draw8, State.withPc_flags, State.withDraws_flags, push16_flags]
    rfl
  · simp only [State.withPc_flags, push16_flags]
    rfl

theorem ignoresDecimal_pha : IgnoresDecimal pha := fun s d =>
  ⟨d, by simp only [pha, withDecimal, State.withFlags_a, push8_withFlags, push8_flags]⟩

theorem ignoresDecimal_withPc (w : Word) : IgnoresDecimal (fun s => s.withPc w) := fun _ d => ⟨d, rfl⟩

theorem ignoresDecimal_jumpIndirect (p : Word) : IgnoresDecimal (jumpIndirect p) :=
  ignoresDecimal_after (fun s f => loadInPage_withFlags s f p) (fun s => (loadInPage_onlyDraws s p).flags)
    ignoresDecimal_withPc

theorem ignoresDecimal_rts : IgnoresDecimal rts :=
  ignoresDecimal_pull16 (act := fun w s => s.withPc (w + 1)) fun w => ignoresDecimal_withPc (w + 1)

theorem ignoresDecimal_txs : IgnoresDecimal txs := by
  intro s d
  refine ⟨d, ?_⟩
  have hf : (decimalAs d s.flags).afterTxs s.x = decimalAs d (s.flags.afterTxs s.x) := by
    unfold Flags.afterTxs
    split <;> rfl
  simp only [txs, withDecimal, State.withFlags_flags, State.withFlags_x, hf]
  rfl

theorem ignoresDecimal_plp : IgnoresDecimal plp :=
  ignoresDecimal_pull8 (act := fun v s => s.withFlags (Flags.ofByte v)) fun _ =>
    ignoresDecimal_of_forgets fun _ _ => rfl

theorem ignoresDecimal_returnFromInterrupt : IgnoresDecimal State.returnFromInterrupt :=
  ignoresDecimal_pull8 (act := fun v s =>
    ((s.withFlags (Flags.ofByte v)).pull16.2).withPc (s.withFlags (Flags.ofByte v)).pull16.1) fun _ =>
      ignoresDecimal_of_forgets fun _ _ => rfl

/-- Every rule but those of ADC and SBC, and of PHP and BRK, which push D, ignores D. -/
theorem ignoresDecimal_of_ruleOf {m : Mnemonic} {o : Operand} {rule : State → State} (h : RuleOf m o rule)
    (hm : m ∉ [.adc, .sbc, .php, .brk]) : IgnoresDecimal rule := by
  cases h with
  | adc | sbc | php | brk => simp at hm
  | cmp src | cpx src | cpy src => exact ignoresDecimal_compareWith (fun _ _ => rfl) src
  | and src | eor src | ora src => exact ignoresDecimal_logicWith _ src
  | bit src => exact ignoresDecimal_bitTest src
  | lda src => exact ignoresDecimal_source (act := fun v s => s.putA v) fun v => ignoresDecimal_putA _ fun _ _ => rfl
  | ldx src => exact ignoresDecimal_source (act := fun v s => s.putX v) fun v => ignoresDecimal_putX _ fun _ _ => rfl
  | ldy src => exact ignoresDecimal_source (act := fun v s => s.putY v) fun v => ignoresDecimal_putY _ fun _ _ => rfl
  | asl tg | lsr tg | rol tg | ror tg => exact ignoresDecimal_readWrite (fun _ _ _ => rfl) tg
  | inc m | dec m => exact ignoresDecimal_readWrite (fun _ _ _ => rfl) (.mem m)
  | sta m | stx m | sty m => exact ignoresDecimal_storeAt m _ fun _ _ => rfl
  | bcc bb | bcs bb | beq bb | bmi bb | bne bb | bpl bb | bvc bb | bvs bb =>
    exact ignoresDecimal_branchIf _ bb fun _ _ => rfl
  | jmpAbs w => exact ignoresDecimal_withPc w
  | jmpInd w => exact ignoresDecimal_jumpIndirect w
  | jsr w => exact ignoresDecimal_jsr w
  | rts => exact ignoresDecimal_rts
  | rti => exact ignoresDecimal_returnFromInterrupt
  | inx | dex | tax | tsx => exact ignoresDecimal_putX _ fun _ _ => rfl
  | iny | dey | tay => exact ignoresDecimal_putY _ fun _ _ => rfl
  | txa | tya => exact ignoresDecimal_putA _ fun _ _ => rfl
  | pha => exact ignoresDecimal_pha
  | pla => exact ignoresDecimal_pull8 (act := fun v s => s.putA v) fun v => ignoresDecimal_putA _ fun _ _ => rfl
  | plp => exact ignoresDecimal_plp
  | txs => exact ignoresDecimal_txs
  | clc | cli | clv | sec | sei | nop => exact fun s d => ⟨d, rfl⟩
  | cld | sed => exact ignoresDecimal_of_forgets fun _ _ => rfl

/-- Settles O58: the run with D replaced is the same rule from the state with D replaced. -/
theorem onlyAdcSbcReadDecimalFlag : Obligations.OnlyAdcSbcReadDecimalFlag := by
  intro i s t d hi h
  obtain ⟨rule, ⟨hrule, hexec⟩, rfl⟩ := exec_next h
  obtain ⟨e, he⟩ := ignoresDecimal_of_ruleOf hrule hi (pastInstr i s) d
  refine ⟨rule (withDecimal (pastInstr i s) d), hexec (withDecimal s d), ?_⟩
  rw [he]
  rfl

end Sys2Proof.Proofs
end

section
/-! PROOFS. Memory and the stack (20_memory.md R47, R51 to R53, R59): what one access, one push and one pull do. -/

namespace Sys2Proof.Proofs
open Sys2Proof Sys2Proof.Machine Sys2Proof.Claims

/-! ### One byte -/

@[simp] theorem store_kindAt (s : State) (a : Word) (v : Byte) (b : Word) : (s.store a v).kindAt b = s.kindAt b :=
  kindAt_of_platform (store_platform s a v) b

@[simp] theorem push8_kindAt (s : State) (v : Byte) (b : Word) : (s.push8 v).kindAt b = s.kindAt b :=
  store_kindAt s _ v b

/-- A write where there is no RAM changes nothing. -/
theorem store_not_ram {s : State} {a : Word} (h : s.kindAt a ≠ .ram) (v : Byte) : s.store a v = s := by
  simp [store_eq, h]

/-- A read after a write to RAM gives the value written. -/
theorem load_store_ram {s : State} {a : Word} (h : s.kindAt a = .ram) (v : Byte) :
    (s.store a v).load a = (v, s.store a v) := by
  rw [load_plain (by simp [h]), store_read, if_pos ⟨rfl, h⟩]

/-- Settles O17: the rules of a read of plain memory and of a store's bytes and frame. -/
theorem memReadMemWrite : Obligations.MemReadMemWrite := by
  intro s a v
  refine ⟨fun hplain => load_plain (bne_iff_ne.1 hplain), fun hram => load_store_ram hram v, fun _ b hb => ?_,
    store_kindAt s a v, (frame_store s a v).keeps, store_pc s a v⟩
  rw [store_read, if_neg fun h => hb h.1]

/-- Settles O18: a read there takes a free byte, and a write needs RAM to change anything. -/
theorem externalAddresses : Obligations.ExternalAddresses := fun _ _ v hext =>
  ⟨load_external hext, store_not_ram (by simp [hext]) v⟩

/-! ### The stack page -/

theorem stackAddr_toNat (sp : Byte) : (stackAddr sp).toNat = 0x0100 + sp.toNat := by
  rw [stackAddr, wordOf, BitVec.toNat_append, ← Nat.shiftLeft_add_eq_or_of_lt sp.isLt]
  rfl

theorem stackAddr_inj {p q : Byte} : stackAddr p = stackAddr q ↔ p = q := by
  rw [← BitVec.toNat_inj, ← BitVec.toNat_inj, stackAddr_toNat, stackAddr_toNat]
  omega

theorem stackAddr_pred_ne (sp : Byte) : stackAddr (sp - 1) ≠ stackAddr sp := fun h => by
  have := stackAddr_inj.1 h
  bv_omega

theorem wordOf_hiByte_loByte (w : Word) : wordOf (hiByte w) (loByte w) = w :=
  BitVec.extractLsb'_append_extractLsb'_eq_extractLsb' rfl |>.trans BitVec.extractLsb'_eq_self

/-! ### One push, one pull -/

/-- The bytes after a push. -/
theorem push8_read (s : State) (v : Byte) (b : Word) :
    (s.push8 v).mem.read b = if b = stackAddr s.sp ∧ s.kindAt b = .ram then v else s.mem.read b := by
  rw [push8_eq, State.withSp_mem, store_read]
  exact if_congr (and_congr_right fun h => by rw [h]) rfl rfl

@[simp] theorem push8_sp (s : State) (v : Byte) : (s.push8 v).sp = s.sp - 1 := rfl

/-- No read depends on SP. -/
theorem load_withSp (s : State) (sp : Byte) (a : Word) :
    (s.withSp sp).load a = ((s.load a).1, (s.load a).2.withSp sp) := by
  have hk : (s.withSp sp).kindAt a = s.kindAt a := kindAt_of_platform rfl a
  unfold State.load
  rw [hk]
  cases s.kindAt a <;> rfl

/-- A pull: one read at `$0100 + SP + 1`, and SP one more. -/
theorem pull8_eq (s : State) :
    s.pull8 = ((s.load (stackAddr (s.sp + 1))).1, (s.load (stackAddr (s.sp + 1))).2.withSp (s.sp + 1)) :=
  load_withSp s (s.sp + 1) _

/-- Settles O19: the stack page's addresses, then a push's store and a pull's read, with the frame of each. -/
theorem pushAndPullByte : Obligations.PushAndPullByte := by
  refine ⟨stackAddr_toNat, fun s v => ⟨⟨?_, fun b => store_read s _ b v, (frame_push8 s v).keeps, store_pc s _ v⟩,
    ?_, ?_, (frame_pull8 s).keeps, (pull8_onlyDraws s).pc⟩⟩
  · rw [push8_sp]
    bv_omega
  · rw [(pull8_onlyDraws s).sp, State.withSp_sp]
    bv_omega
  · rw [pull8_eq]

/-! ### Words -/

/-- The bytes after pushing a word: two pushes at two addresses. -/
theorem push16_read (s : State) (w : Word) : PushedWord s (s.push16 w) w := by
  intro b
  rw [State.push16, push8_read, push8_read, push8_sp, push8_kindAt]
  by_cases hhi : b = stackAddr s.sp ∧ s.kindAt b = .ram
  · have hlo : ¬(b = stackAddr (s.sp - 1) ∧ s.kindAt b = .ram) := fun h =>
      stackAddr_pred_ne s.sp (h.1.symm.trans hhi.1)
    rw [if_neg hlo, if_pos hhi, if_pos hhi]
  · rw [if_neg hhi, if_neg hhi]

theorem push16_sp (s : State) (w : Word) : (s.push16 w).sp = s.sp - 2 := by
  rw [State.push16, push8_sp, push8_sp]
  bv_omega

/-- The word a pull gives: two reads, the low byte's address first. -/
theorem pull16_value (s : State) :
    s.pull16.1 = wordOf ((s.load (stackAddr (s.sp + 1))).2.load (stackAddr (s.sp + 2))).1
      (s.load (stackAddr (s.sp + 1))).1 := by
  have hsp : s.sp + 1 + 1 = s.sp + 2 := by bv_omega
  simp only [State.pull16, pull8_eq, State.withSp_sp, load_withSp, hsp]

theorem pull16_sp (s : State) : s.pull16.2.sp = s.sp + 2 := by
  rw [(pull16_onlyDraws s).sp, State.withSp_sp]
  bv_omega

/-- On a stack of RAM a pull gives the word held in the next two bytes. -/
theorem pull16_of_stackIsRam {s : State} (h : s.stackIsRam) :
    s.pull16.1 = wordOf (s.mem.read (stackAddr (s.sp + 2))) (s.mem.read (stackAddr (s.sp + 1))) := by
  have hplain : ∀ sp, s.kindAt (stackAddr sp) ≠ .external := fun sp => by simp [h sp]
  rw [pull16_value, load_plain (hplain _), load_plain (hplain _)]

/-- On a stack of RAM a pull after a push gives the word back. -/
theorem pull16_push16 {s : State} (h : s.stackIsRam) (w : Word) : (s.push16 w).pull16.1 = w := by
  have hram : (s.push16 w).stackIsRam := fun sp => by simp [State.push16, h sp]
  have hhi : s.sp - 2 + 2 = s.sp := by bv_omega
  have hlo : s.sp - 2 + 1 = s.sp - 1 := by bv_omega
  rw [pull16_of_stackIsRam hram, push16_sp, hhi, hlo, push16_read, push16_read, if_pos ⟨rfl, h _⟩,
    if_neg fun e => stackAddr_pred_ne s.sp e.1, if_pos ⟨rfl, h _⟩, wordOf_hiByte_loByte]

/-- Settles O20: the bytes and SP after a push, the reads and SP of a pull, and the two together. -/
theorem pushAndPullWord : Obligations.PushAndPullWord := by
  refine ⟨fun s w => ⟨push16_read s w, push16_sp s w, (frame_push16 s w).keeps⟩,
    fun s => ⟨pull16_sp s, (frame_pull16 s).keeps, pull16_value s⟩, fun s w h => ⟨pull16_push16 h w, ?_⟩⟩
  rw [pull16_sp, push16_sp]
  bv_omega

end Sys2Proof.Proofs
end

section
/-! PROOFS. What no event and no instruction changes: the platform's map, the vectors' addresses, the inputs to come and every
byte outside RAM (20_memory.md R51, 00_scope.md R7); and the count of free values never falls (R9). -/

namespace Sys2Proof.Proofs
open Sys2Proof Sys2Proof.Machine Sys2Proof.Claims

/-- From `s` to `t` the platform stays as it is: bytes change in RAM only, and free values are not given back. -/
structure KeepsPlatform (s t : State) : Prop where
  platform : t.platform = s.platform
  vectors : t.vectors = s.vectors
  inputs : t.inputs = s.inputs
  draws : s.draws ≤ t.draws
  ramOnly : ∀ b : Word, t.mem.read b ≠ s.mem.read b → s.kindAt b = .ram

/-- The frame gives the map, the vectors' addresses and the inputs. -/
theorem KeepsPlatform.of_keeps {w : List Part} {s t : State} (h : KeepsAllBut w s t) (draws : s.draws ≤ t.draws)
    (ramOnly : ∀ b : Word, t.mem.read b ≠ s.mem.read b → s.kindAt b = .ram) : KeepsPlatform s t :=
  have ⟨_, hmap, hvec, hin⟩ := h
  ⟨hmap, hvec, hin, draws, ramOnly⟩

theorem KeepsPlatform.after_draws {s t u : State} (k : KeepsPlatform t u) (h : OnlyDraws s t) : KeepsPlatform s u where
  platform := k.platform.trans h.platform
  vectors := k.vectors.trans h.vectors
  inputs := k.inputs.trans h.inputs
  draws := h.2.trans k.draws
  ramOnly := fun b hb => kindAt_of_platform h.platform b ▸ k.ramOnly b (by rwa [h.mem])

theorem KeepsPlatform.rom {s t : State} (h : KeepsPlatform s t) {b : Word} (hrom : s.kindAt b = .rom) :
    t.mem.read b = s.mem.read b := by
  by_contra hne
  exact nomatch hrom.symm.trans (h.ramOnly b hne)

/-! ### Events at a boundary -/

theorem takeReset_platform (s : State) : s.takeReset.platform = s.platform ∧ s.takeReset.vectors = s.vectors ∧
    s.takeReset.inputs = s.inputs := by
  have hread := loadWord_onlyDraws ((s.withFlags { s.flags with i := true }).withNmiPending false) s.vectors.res
  simp [State.takeReset, State.draw8, State.draw1, hread.platform, hread.vectors, hread.inputs]

/-- `Reset()` takes nine free values after its read of the vector: four bytes and five bits (70_reset_and_hazards.md R240). -/
theorem takeReset_draws (s : State) : s.draws ≤ s.takeReset.draws :=
  (loadWord_onlyDraws ((s.withFlags { s.flags with i := true }).withNmiPending false) s.vectors.res).2.trans
    (Nat.le_add_right _ 9)

theorem keepsPlatform_takeReset (s : State) : KeepsPlatform s s.takeReset :=
  have ⟨hmap, hvec, hin⟩ := takeReset_platform s
  ⟨hmap, hvec, hin, takeReset_draws s, fun b hb => absurd (congrArg (Memory.read · b) (takeReset_mem s)) hb⟩

@[simp] theorem push8_draws (s : State) (v : Byte) : (s.push8 v).draws = s.draws := store_draws s _ v
@[simp] theorem push16_draws (s : State) (w : Word) : (s.push16 w).draws = s.draws := by simp [State.push16]

theorem enter_draws (s : State) (ret : Word) (b : Bool) (vector : Word) : s.draws ≤ (s.enter ret b vector).draws := by
  simpa using (enter_onlyDraws s ret b vector).2

/-- The entry of IRQ and NMI changes bytes by its pushes only (60_exceptions.md R213). -/
theorem keepsPlatform_interrupt (s : State) (vector : Word) : KeepsPlatform s (s.interrupt vector) :=
  .of_keeps (frame_enter s _ _ _).keeps (enter_draws s _ _ _) fun b hb => by
    rw [State.interrupt, enter_mem] at hb
    exact (pushAll_read_ne hb).1

theorem keepsPlatform_takeNmi (s : State) : KeepsPlatform s s.takeNmi :=
  have h := keepsPlatform_interrupt (s.withNmiPending false) s.vectors.nmi
  ⟨h.platform, h.vectors, h.inputs, h.draws, h.ramOnly⟩

/-! ### Instructions -/

theorem decimalResult_draws (r : Option (Byte × Bool)) (s : State) : s.draws ≤ (decimalResult r s).draws := by
  cases r with
  | some p => exact Nat.le_add_right s.draws 3
  | none => exact Nat.le_add_right s.draws 5

theorem arithmetic_draws (s : State) (r : Option (Byte × Bool)) (q : Byte × Flags) :
    s.draws ≤ (if s.flags.d then decimalResult r s else binaryResult q s).draws := by
  split
  · exact decimalResult_draws r s
  · exact le_refl s.draws

theorem readWrite_draws (tg : Target) (f : Flags → Byte → Byte × Flags) (s : State) :
    s.draws ≤ (readWrite tg f s).draws := by
  cases tg with
  | acc => exact le_refl s.draws
  | mem m =>
    rw [readWrite_mem, State.withFlags_draws, store_draws]
    exact (targetRead_onlyDraws (.mem m) s).2

theorem storeAt_draws (m : Addr) (v : State → Byte) (s : State) : s.draws ≤ (storeAt m v s).draws := by
  rw [storeAt_eq, store_draws]
  exact (addrEA_onlyDraws m s).2

theorem branchIf_draws (cond : Flags → Bool) (bb : Byte) (s : State) : (branchIf cond bb s).draws = s.draws := by
  unfold branchIf
  split <;> rfl

/-- JSR takes a free value where a push goes to its own third byte. -/
theorem jsr_draws (target : Word) (s : State) : s.draws ≤ (jsr target s).draws := by
  rw [← push16_draws s (s.pc - 1)]
  simp only [jsr]
  split
  · exact Nat.le_add_right _ 1
  · exact le_refl _

theorem returnFromInterrupt_draws (s : State) : s.draws ≤ s.returnFromInterrupt.draws :=
  (pull8_onlyDraws s).2.trans (pull16_onlyDraws (s.pull8.2.withFlags (Flags.ofByte s.pull8.1))).2

/-- No rule lets the count of free values fall. -/
theorem draws_le_of_ruleOf {mn : Mnemonic} {o : Operand} {rule : State → State} (h : RuleOf mn o rule) (s : State) :
    s.draws ≤ (rule s).draws := by
  cases h with
  | adc src | sbc src => exact (sourceValue_onlyDraws src s).2.trans (arithmetic_draws _ _ _)
  | cmp src | cpx src | cpy src | and src | eor src | ora src | bit src | lda src | ldx src | ldy src =>
    exact (sourceValue_onlyDraws src s).2
  | asl tg | lsr tg | rol tg | ror tg => exact readWrite_draws tg _ s
  | inc m | dec m => exact readWrite_draws (.mem m) _ s
  | sta m | stx m | sty m => exact storeAt_draws m _ s
  | bcc bb | bcs bb | beq bb | bmi bb | bne bb | bpl bb | bvc bb | bvs bb => exact (branchIf_draws _ bb s).ge
  | jmpInd w => exact (loadInPage_onlyDraws s w).2
  | jsr w => exact jsr_draws w s
  | rts => exact (pull16_onlyDraws s).2
  | brk => exact enter_draws s _ _ _
  | rti => exact returnFromInterrupt_draws s
  | pha | php => exact (push8_draws s _).ge
  | pla | plp => exact (pull8_onlyDraws s).2
  | jmpAbs | inx | iny | dex | dey | tax | tay | tsx | txa | txs | tya | clc | cld | cli | clv | sec | sed | sei | nop =>
    exact le_refl s.draws

/-- Every instruction keeps the platform: its line of R38 does not name it, and its stores change RAM only. -/
theorem keepsPlatform_exec {i : Instr} {s t : State} (h : exec i s = .next t) : KeepsPlatform s t := by
  refine .of_keeps (instructionsWriteOnlyTheirLine i s t h) ?_ fun b hb => (storesStayAtTheirAddress i s t b h hb).1
  obtain ⟨rule, ⟨hrule, -⟩, rfl⟩ := exec_next h
  exact draws_le_of_ruleOf hrule (pastInstr i s)

/-! ### One step -/

/-- At the boundary one record of inputs is used up, and of the platform only the contents of memory may change. -/
theorem atBoundary_platform (s : State) :
    (atBoundary s).platform = s.platform ∧ (atBoundary s).vectors = s.vectors ∧ (atBoundary s).inputs = s.inputs.tail ∧
      (atBoundary s).draws = s.draws := by
  unfold atBoundary
  cases h : s.inputs with
  | nil => simp [sample_nil h, h]
  | cons now rest => simp [sample_cons h]

/-- From the boundary to the next state a step keeps the platform, whichever event it takes. -/
theorem keepsPlatform_step {s t : State} (h : step s = .next t) : KeepsPlatform (atBoundary s) t := by
  rcases step_cases h with ⟨-, rfl⟩ | ⟨-, rfl⟩ | ⟨-, rfl⟩ | ⟨-, i, -, hexec⟩
  · exact keepsPlatform_takeReset _
  · exact keepsPlatform_takeNmi _
  · exact keepsPlatform_interrupt _ _
  · exact (keepsPlatform_exec hexec).after_draws (fetch_onlyDraws _)

/-- Settles O15: the inputs are used up at the boundary, and from there the step keeps the platform. -/
theorem stepKeepsPlatformAndRom : Obligations.StepKeepsPlatformAndRom := by
  intro s t h
  have hstep := keepsPlatform_step h
  obtain ⟨hmap, hvec, hin, hdraws⟩ := atBoundary_platform s
  exact ⟨hstep.platform.trans hmap, hstep.vectors.trans hvec, hstep.inputs.trans hin, hdraws ▸ hstep.draws,
    fun b hb => hstep.rom ((kindAt_of_platform hmap b).trans hb)⟩

end Sys2Proof.Proofs
end

section
/-! PROOFS. The decoder and the encoder (30_encoding.md R60 to R62, R80 to R83): each cell of the opcode matrix says how
the bytes of its instructions are read, and the encoder writes those bytes. -/

namespace Sys2Proof.Proofs
open Sys2Proof Sys2Proof.Machine Sys2Proof.Claims

/-! ### Words of two bytes -/

theorem wordOf_toNat (hi lo : Byte) : (wordOf hi lo).toNat = hi.toNat * 256 + lo.toNat := by
  rw [wordOf, BitVec.toNat_append, ← Nat.shiftLeft_add_eq_or_of_lt lo.isLt, Nat.shiftLeft_eq]

@[simp] theorem loByte_wordOf (hi lo : Byte) : loByte (wordOf hi lo) = lo := BitVec.extractLsb'_append_eq_right

@[simp] theorem hiByte_wordOf (hi lo : Byte) : hiByte (wordOf hi lo) = hi := BitVec.extractLsb'_append_eq_left

/-! ### Decoding is reading one cell of the matrix -/

/-- The instruction that a cell of the matrix makes of the operand bytes of its format (R60): none, one, or the two bytes of a
word, the low byte first (R62). -/
inductive FormReads : Form → List Byte → Instr → Prop where
  | f1 (i : Instr) : FormReads (.f1 i) [] i
  | f2 (i : Byte → Instr) (b1 : Byte) : FormReads (.f2 i) [b1] (i b1)
  | f3 (i : Word → Instr) (b1 b2 : Byte) : FormReads (.f3 i) [b1, b2] (i (wordOf b2 b1))

/-- A three-byte cell reads a word from its two bytes. -/
theorem FormReads.word (i : Word → Instr) (w : Word) : FormReads (.f3 i) [loByte w, hiByte w] (i w) := by
  simpa only [wordOf_hiByte_loByte] using FormReads.f3 i (loByte w) (hiByte w)

theorem decode_of_reads {opc : Byte} {form : Form} {ops : List Byte} {i : Instr} (hcell : lookup opc = some form)
    (hreads : FormReads form ops i) (rest : List Byte) : decode (opc :: (ops ++ rest)) = .ok (i, rest) := by
  cases hreads <;> simp [decode, hcell]

/-- What the decoder answers comes of one cell of the matrix and the bytes of its format. -/
theorem reads_of_decode {bs rest : List Byte} {i : Instr} (h : decode bs = .ok (i, rest)) :
    ∃ opc form ops, lookup opc = some form ∧ FormReads form ops i ∧ bs = opc :: (ops ++ rest) := by
  cases bs with
  | nil => simp [decode] at h
  | cons opc bs =>
    simp only [decode] at h
    split at h
    · cases h
    · next hcell => cases h; exact ⟨opc, _, [], hcell, .f1 _, rfl⟩
    · next hcell => cases h; exact ⟨opc, _, [_], hcell, .f2 _ _, rfl⟩
    · next hcell => cases h; exact ⟨opc, _, [_, _], hcell, .f3 _ _ _, rfl⟩
    · cases h

theorem decode_of_lookup_none {opc : Byte} (h : lookup opc = none) (bs : List Byte) :
    decode (opc :: bs) = .error (.illegalOpcode opc) := by
  simp [decode, h]

/-! ### The encoder writes what the cell reads -/

/-- The encoder writes the cell's opcode byte and then the operand bytes of the cell's format. -/
def CellEncodes (opc : Byte) : Form → Prop
  | .f1 i => encode i = [opc]
  | .f2 i => ∀ b, encode (i b) = [opc, b]
  | .f3 i => ∀ w, encode (i w) = [opc, loByte w, hiByte w]

theorem CellEncodes.encode_eq {opc : Byte} {form : Form} {ops : List Byte} {i : Instr} (h : CellEncodes opc form)
    (hreads : FormReads form ops i) : encode i = opc :: ops := by
  cases hreads with
  | f1 i => exact h
  | f2 i b1 => exact h b1
  | f3 i b1 b2 => simpa using h (wordOf b2 b1)

/-- Row by row, the encoder's table (R81) agrees with every cell of the matrix (R80). -/
theorem matrix_cellEncodes : ∀ r ∈ matrix, CellEncodes r.opcode r.form := by
  simp only [matrix, List.forall_mem_append, matrixRow0, matrixRow1, matrixRow2, matrixRow3, matrixRow4, matrixRow5,
    matrixRow6, matrixRow7, matrixRow8, matrixRow9, matrixRowA, matrixRowB, matrixRowC, matrixRowD, matrixRowE,
    matrixRowF, List.forall_mem_cons, List.not_mem_nil]
  simp [CellEncodes, encode]

theorem lookup_cellEncodes {opc : Byte} {form : Form} (h : lookup opc = some form) : CellEncodes opc form := by
  obtain ⟨r, hfind, rfl⟩ := Option.map_eq_some_iff.1 h
  have hopc : r.opcode = opc := by simpa using List.find?_some hfind
  exact hopc ▸ matrix_cellEncodes r (List.mem_of_find?_eq_some hfind)

/-- Settles O3: the decoder reads one cell, and the encoder writes that cell's bytes. -/
theorem decodedBytesAreItsEncoding : Obligations.DecodedBytesAreItsEncoding := by
  intro bs rest i h
  obtain ⟨opc, form, ops, hcell, hreads, rfl⟩ := reads_of_decode h
  rw [(lookup_cellEncodes hcell).encode_eq hreads, List.cons_append]

/-- Every instruction's encoding is an opcode byte of the matrix and operand bytes from which its cell reads the instruction:
one case for each of the formats F1, F2, F3 (R60). -/
theorem encode_reads (i : Instr) :
    ∃ opc form ops, encode i = opc :: ops ∧ lookup opc = some form ∧ FormReads form ops i := by
  cases i with
  | aslAcc | brk | clc | cld | cli | clv | dex | dey | inx | iny | lsrAcc | nop | pha | php | pla | plp | rolAcc | rorAcc
  | rti | rts | sec | sed | sei | tax | tay | tsx | txa | txs | tya => exact ⟨_, _, _, rfl, rfl, .f1 _⟩
  | adcXInd b | adcZpg b | adcImm b | adcIndY b | adcZpgX b | andXInd b | andZpg b | andImm b | andIndY b | andZpgX b
  | aslZpg b | aslZpgX b | bcc b | bcs b | beq b | bitZpg b | bmi b | bne b | bpl b | bvc b | bvs b
  | cmpXInd b | cmpZpg b | cmpImm b | cmpIndY b | cmpZpgX b | cpxImm b | cpxZpg b | cpyImm b | cpyZpg b
  | decZpg b | decZpgX b | eorXInd b | eorZpg b | eorImm b | eorIndY b | eorZpgX b | incZpg b | incZpgX b
  | ldaXInd b | ldaZpg b | ldaImm b | ldaIndY b | ldaZpgX b | ldxImm b | ldxZpg b | ldxZpgY b
  | ldyImm b | ldyZpg b | ldyZpgX b | lsrZpg b | lsrZpgX b | oraXInd b | oraZpg b | oraImm b | oraIndY b | oraZpgX b
  | rolZpg b | rolZpgX b | rorZpg b | rorZpgX b | sbcXInd b | sbcZpg b | sbcImm b | sbcIndY b | sbcZpgX b
  | staXInd b | staZpg b | staIndY b | staZpgX b | stxZpg b | stxZpgY b | styZpg b | styZpgX b =>
    exact ⟨_, _, _, rfl, rfl, .f2 _ b⟩
  | adcAbs w | adcAbsY w | adcAbsX w | andAbs w | andAbsY w | andAbsX w | aslAbs w | aslAbsX w | bitAbs w
  | cmpAbs w | cmpAbsY w | cmpAbsX w | cpxAbs w | cpyAbs w | decAbs w | decAbsX w | eorAbs w | eorAbsY w | eorAbsX w
  | incAbs w | incAbsX w | jmpAbs w | jmpInd w | jsr w | ldaAbs w | ldaAbsY w | ldaAbsX w | ldxAbs w | ldxAbsY w
  | ldyAbs w | ldyAbsX w | lsrAbs w | lsrAbsX w | oraAbs w | oraAbsY w | oraAbsX w | rolAbs w | rolAbsX w
  | rorAbs w | rorAbsX w | sbcAbs w | sbcAbsY w | sbcAbsX w | staAbs w | staAbsY w | staAbsX w | stxAbs w | styAbs w =>
    exact ⟨_, _, _, rfl, rfl, .word _ w⟩

theorem decode_encode (i : Instr) (rest : List Byte) : decode (encode i ++ rest) = .ok (i, rest) := by
  obtain ⟨opc, form, ops, hbytes, hcell, hreads⟩ := encode_reads i
  rw [hbytes, List.cons_append, decode_of_reads hcell hreads]

/-! ### Which forms exist -/

/-- The law of each constructor (`Sys2Proof.Laws.EncodedForm`), for the instruction as a variable. -/
theorem encodedForm (i : Instr) : Laws.EncodedForm.Statement i := by
  cases i <;> exact ⟨rfl, rfl, rfl⟩

theorem instr_wellFormed (i : Instr) : i.wellFormed = true := (encodedForm i).1

theorem encode_length (i : Instr) : (encode i).length = i.bytes := (encodedForm i).2.1

/-- Settles O2: every form is in its mode's list, and each cell reads back the bytes the encoder writes. -/
theorem decodeEncodeRoundTrip : Obligations.DecodeEncodeRoundTrip := fun i rest =>
  ⟨instr_wellFormed i, decode_encode i rest⟩

/-- The instruction of a cell with its operand zero, which shows the cell's mnemonic and mode. -/
def formAtZero : Form → Instr
  | .f1 i => i
  | .f2 i => i 0
  | .f3 i => i 0

/-- The lists of R65 to R77 name no pair that the matrix has no cell for. -/
theorem listed_in_matrix (md : Mode) : ∀ m ∈ md.instructions,
    ∃ r ∈ matrix, (formAtZero r.form).mnemonic = m ∧ (formAtZero r.form).mode = md := by
  cases md <;> decide +kernel

/-- Settles O5: a listed pair has a cell, and an instruction is well formed. -/
theorem formsThatExist : Obligations.FormsThatExist := by
  intro m md
  constructor
  · intro h
    obtain ⟨r, -, hm, hmd⟩ := listed_in_matrix md m (by simpa [formExists] using h)
    exact ⟨formAtZero r.form, hm, hmd⟩
  · rintro ⟨i, rfl, rfl⟩
    exact instr_wellFormed i

/-! ### The illegal bytes -/

/-- R82 lists, by rising value, the bytes for which the matrix has no cell. -/
theorem illegalBytes_eq_filter :
    illegalBytes = ((List.range 256).map (BitVec.ofNat 8)).filter fun opc => (lookup opc).isNone := by
  decide +kernel

theorem lookup_eq_none_iff {opc : Byte} : lookup opc = none ↔ opc ∈ illegalBytes := by
  have hrange : opc ∈ (List.range 256).map (BitVec.ofNat 8) :=
    List.mem_map.2 ⟨opc.toNat, List.mem_range.2 opc.isLt, by simp⟩
  rw [illegalBytes_eq_filter, List.mem_filter, Option.isNone_iff_eq_none, and_iff_right hrange]

/-- Settles O4: a byte with a cell decodes, because no format takes more than two operand bytes (R60). -/
theorem illegalBytesAreTheListed105 : Obligations.IllegalBytesAreTheListed105 := by
  refine ⟨rfl, fun opc b1 b2 => ⟨fun h => decode_of_lookup_none (lookup_eq_none_iff.2 h) _, fun h => ?_⟩⟩
  obtain ⟨form, hcell⟩ := Option.ne_none_iff_exists'.1 (mt lookup_eq_none_iff.1 h)
  cases form with
  | f1 i => exact ⟨_, decode_of_reads hcell (.f1 i) [b1, b2]⟩
  | f2 i => exact ⟨_, decode_of_reads hcell (.f2 i b1) [b2]⟩
  | f3 i => exact ⟨_, decode_of_reads hcell (.f3 i b1 b2) []⟩

/-! ### Written words -/

/-- Settles O1: the cell of each opcode byte, and the operand bytes of its format. -/
theorem writtenWordsDecode : Obligations.WrittenWordsDecode := fun b1 b2 rest =>
  ⟨decode_of_reads rfl (.f1 .brk) rest, decode_of_reads rfl (.f1 .nop) rest, decode_of_reads rfl (.f1 .aslAcc) rest,
    decode_of_reads rfl (.f2 .adcImm b1) rest, decode_of_reads rfl (.f2 .staZpg b1) rest,
    decode_of_reads rfl (.f2 .ldaIndY b1) rest, decode_of_reads rfl (.f2 .bne b1) rest,
    decode_of_reads rfl (.f3 .jsr b1 b2) rest, decode_of_reads rfl (.f3 .jmpInd b1 b2) rest,
    decode_of_reads rfl (.f3 .staAbsX b1 b2) rest, wordOf_toNat b2 b1⟩

end Sys2Proof.Proofs
end

section
/-! PROOFS. The effective addresses (30_encoding.md R67 to R77), the operand value (R70, R78), and page crossing with its cycles
(R79, 70_reset_and_hazards.md R247). -/

namespace Sys2Proof.Proofs
open Sys2Proof Sys2Proof.Machine Sys2Proof.Claims

/-! ### Zero-extended bytes -/

theorem zext16_toNat (b : Byte) : (zext16 b).toNat = b.toNat := BitVec.toNat_setWidth_of_le (by decide)

/-- A zero-extended byte is an address in page 0. -/
theorem zext16_eq_wordOf (b : Byte) : zext16 b = wordOf 0 b := by
  apply BitVec.eq_of_toNat_eq
  simp [zext16_toNat, wordOf_toNat]

theorem add_zext16_toNat (w : Word) (b : Byte) : (w + zext16 b).toNat = (w.toNat + b.toNat) % 65536 := by
  rw [BitVec.toNat_add, zext16_toNat]

/-! ### Effective addresses -/

/-- Settles O22: a 16-bit sum wraps at 65536, a sum of bytes at 256, and no mode here makes an access. -/
theorem directEffectiveAddresses : Obligations.DirectEffectiveAddresses := fun s ll w =>
  ⟨rfl, ⟨add_zext16_toNat w s.x, rfl⟩, ⟨add_zext16_toNat w s.y, rfl⟩, ⟨zext16_toNat ll, rfl⟩,
    ⟨(zext16_toNat _).trans (BitVec.toNat_add ll s.x), rfl⟩, ⟨(zext16_toNat _).trans (BitVec.toNat_add ll s.y), rfl⟩⟩

theorem load_of_plainAt {s : State} {a : Word} (h : s.plainAt a = true) : s.load a = (s.mem.read a, s) :=
  load_plain (bne_iff_ne.1 h)

/-- A pointer of page 0 in plain memory: its high byte is at the next address of page 0 (20_memory.md R49). -/
theorem loadInPage_zeroPage {s : State} (h : ∀ z : Byte, s.plainAt (zext16 z) = true) (z : Byte) :
    s.loadInPage (zext16 z) = (wordOf (s.mem.read (zext16 (z + 1))) (s.mem.read (zext16 z)), s) := by
  have hnext : wordOf (hiByte (zext16 z)) (loByte (zext16 z) + 1) = zext16 (z + 1) := by
    simp only [zext16_eq_wordOf, hiByte_wordOf, loByte_wordOf]
  simp only [State.loadInPage, hnext, load_of_plainAt (h _)]

/-- Settles O23: the two pointers of page 0, and the frame of a mode's accesses. -/
theorem indirectEffectiveAddresses : Obligations.IndirectEffectiveAddresses := by
  refine fun s bb => ⟨fun h => ⟨⟨bb + s.x, BitVec.toNat_add bb s.x, ?_⟩, ?_⟩, fun m => ?_⟩
  · rw [addrEA, loadInPage_zeroPage h, wordOf_toNat]
    omega
  · rw [addrEA, loadInPage_zeroPage h, add_zext16_toNat, wordOf_toNat]
    omega
  · have hmode := addrEA_onlyDraws m s
    exact ⟨(frame_of_onlyDraws hmode).keeps, hmode.pc⟩

/-! ### The operand value -/

theorem plainAt_of_onlyDraws {s t : State} (h : OnlyDraws s t) (a : Word) : t.plainAt a = s.plainAt a := by
  rw [State.plainAt, State.plainAt, kindAt_of_platform h.platform]

/-- Settles O50: the mode's own accesses leave memory and its map, so the read is that of the state before them. -/
theorem operandValues : Obligations.OperandValues := by
  refine fun s bb m => ⟨rfl, rfl, fun h => ?_⟩
  have hmode := addrEA_onlyDraws m s
  rw [← plainAt_of_onlyDraws hmode] at h
  rw [operandM, sourceValue, load_of_plainAt h, hmode.mem]

/-! ### Page crossing -/

theorem hiByte_toNat (w : Word) : (hiByte w).toNat = w.toNat / 256 := by
  rw [← wordOf_hiByte_loByte w, wordOf_toNat, hiByte_wordOf]
  omega

theorem hiByte_inj {v w : Word} : hiByte v = hiByte w ↔ v.toNat / 256 = w.toNat / 256 := by
  rw [← BitVec.toNat_inj, hiByte_toNat, hiByte_toNat]

/-- An indexed address lies in another page exactly when the low byte's sum carries, over the top of memory too (R79). -/
theorem hiByte_add_zext16_ne (w : Word) (b : Byte) :
    (hiByte (w + zext16 b) != hiByte w) = true ↔ 255 < w.toNat % 256 + b.toNat := by
  rw [bne_iff_ne, ne_eq, hiByte_inj, add_zext16_toNat]
  omega

/-! ### Cycles -/

/-- A memory operand: the cell, and the first footnote (R247). -/
theorem cycles_mem {i : Instr} {m : Addr} (h : i.operand = .mem m) (s : State) :
    cycles i s = tableCycles i + if starred i = true ∧ pageCrossed m s = true then 1 else 0 := by
  simp only [cycles, extraCycles, h, Bool.and_eq_true]

/-- A branch offset: the cell, and the second footnote (R247). -/
theorem cycles_rel {i : Instr} {bb : Byte} {s : State} {taken : Bool} (h : i.operand = .rel bb)
    (ht : branchTaken i s.flags = some (taken, bb)) :
    cycles i s = tableCycles i + if taken = true then
      (if (branchTarget (s.pc + 2) bb).toNat / 256 = (s.pc + 2).toNat / 256 then 1 else 2) else 0 := by
  cases taken <;> simp [cycles, extraCycles, h, ht, hiByte_inj]

/-- Each line of the branch table is a branch whose cell is 2 cycles and whose condition is the line's. -/
theorem branchRows_branch {bb : Byte} {f : Flags} : ∀ r ∈ branchRows bb f,
    r.2.1.operand = .rel bb ∧ branchTaken r.2.1 f = some (r.2.2, bb) ∧ tableCycles r.2.1 = 2 := by
  intro r hr
  fin_cases hr <;> exact ⟨rfl, rfl, rfl⟩

/-- Settles O60: the carry out of the low byte is the crossing of a page, and each footnote by its operand. -/
theorem pageCrossingCycles : Obligations.PageCrossingCycles := by
  refine fun s w bb => ⟨hiByte_add_zext16_ne w s.x, hiByte_add_zext16_ne w s.y,
    hiByte_add_zext16_ne (s.loadInPage (zext16 bb)).1 s.y, fun i m h => cycles_mem h s, fun r hr => ?_⟩
  obtain ⟨hrel, htaken, hcell⟩ := branchRows_branch r hr
  rw [cycles_rel hrel htaken, hcell]
  refine ⟨fun h => by simp [h], fun h => ?_⟩
  rw [if_pos h]
  split <;> rfl

end Sys2Proof.Proofs
end

section
/-! PROOFS. What a step does where no event is taken (30_encoding.md R63): it runs the instruction it fetches, or stops
with the fault of an illegal opcode (R82). -/

namespace Sys2Proof.Proofs
open Sys2Proof Sys2Proof.Machine Sys2Proof.Claims

/-! ### The fetch -/

/-- The byte a fetch refuses has no cell in the matrix. -/
theorem lookup_of_fetch_error {s : State} {opc : Byte} (h : s.fetch.1 = .error opc) : lookup opc = none := by
  unfold State.fetch at h
  simp only at h
  split at h <;> cases h
  assumption

theorem fetch_illegal {s : State} (hplain : s.plainAt s.pc = true) (h : lookup (s.mem.read s.pc) = none) :
    s.fetch.1 = .error (s.mem.read s.pc) := by
  simp only [State.fetch, load_of_plainAt hplain, h]

/-- A fetch reads as many bytes as the instruction has: where they are plain memory, it answers what decoding
the three bytes at PC answers, and changes nothing. -/
theorem fetch_of_decode {s : State} {i : Instr} {rest : List Byte}
    (hplain : ∀ k < i.bytes, s.plainAt (s.pc + BitVec.ofNat 16 k) = true)
    (h : decode [s.mem.read s.pc, s.mem.read (s.pc + 1), s.mem.read (s.pc + 2)] = .ok (i, rest)) :
    s.fetch = (.ok i, s) := by
  obtain ⟨opc, form, ops, hcell, hreads, hbytes⟩ := reads_of_decode h
  have hlen : i.bytes = ops.length + 1 := by
    rw [← encode_length, (lookup_cellEncodes hcell).encode_eq hreads, List.length_cons]
  have hload : ∀ k < ops.length + 1, s.load (s.pc + BitVec.ofNat 16 k) = (s.mem.read (s.pc + BitVec.ofNat 16 k), s) :=
    fun k hk => load_of_plainAt (hplain k (hlen ▸ hk))
  obtain ⟨rfl, hops⟩ := List.cons.inj hbytes
  have h0 := hload 0 (Nat.succ_pos _)
  rw [BitVec.add_zero] at h0
  cases hreads with
  | f1 i => simp only [State.fetch, h0, hcell]
  | f2 i b1 =>
    have h1 : s.load (s.pc + 1) = _ := hload 1 (by simp)
    cases hops
    simp only [State.fetch, h0, hcell, h1]
    rfl
  | f3 i b1 b2 =>
    have h1 : s.load (s.pc + 1) = _ := hload 1 (by simp)
    have h2 : s.load (s.pc + 2) = _ := hload 2 (by simp)
    cases hops
    simp only [State.fetch, h0, hcell, h1, h2]
    rfl

/-! ### The step -/

theorem atBoundary_pc (s : State) : (atBoundary s).pc = s.pc := by
  unfold atBoundary
  cases h : s.inputs with
  | nil => simp [sample_nil h]
  | cons now rest => simp [sample_cons h]

/-- Where an instruction is fetched, the step is its execution. -/
theorem step_of_fetch {s t : State} {i : Instr} (he : (atBoundary s).event (nowInputs s) = .instruction)
    (hf : (atBoundary s).fetch = (.ok i, t)) : step s = exec i t := by
  unfold atBoundary nowInputs at *
  simp only [step, he, hf]

/-- Settles O6: the fetch at the boundary answers the decoded instruction and changes nothing. -/
theorem stepRunsDecodedInstruction : Obligations.StepRunsDecodedInstruction := by
  intro s i rest he hplain h
  rw [← atBoundary_pc s] at hplain h
  exact step_of_fetch he (fetch_of_decode hplain h)

/-- A step answers a next state, or an illegal byte was fetched where no event was taken: no event and no instruction stops. -/
theorem step_next_or_illegal (s : State) : (∃ t, step s = .next t) ∨
    (atBoundary s).event (nowInputs s) = .instruction ∧ ∃ opc ∈ illegalBytes, step s = .fault (.illegalOpcode opc) := by
  cases he : (atBoundary s).event (nowInputs s) with
  | reset | nmi | irq =>
    unfold atBoundary nowInputs at he
    exact .inl ⟨_, by simp only [step, he]; rfl⟩
  | instruction =>
    cases hf : (atBoundary s).fetch.1 with
    | error opc => exact .inr ⟨rfl, opc, lookup_eq_none_iff.1 (lookup_of_fetch_error hf), step_fault he hf⟩
    | ok i =>
      obtain ⟨rule, -, hexec⟩ := exec_performs i
      exact .inl ⟨_, (step_of_fetch he (Prod.ext hf rfl)).trans (hexec _)⟩

/-- Settles O7: an illegal byte is fetched as it stands in memory, and there is no other way for a step to stop. -/
theorem onlyIllegalOpcodesStop : Obligations.OnlyIllegalOpcodesStop := by
  refine ⟨fun s he hplain hill => ?_, fun s f hf => ?_, fun s r hr => ?_⟩
  · rw [← atBoundary_pc s] at hplain hill ⊢
    exact step_fault he (fetch_illegal hplain (lookup_eq_none_iff.2 hill))
  · rcases step_next_or_illegal s with ⟨t, ht⟩ | ⟨he, opc, hopc, hstep⟩
    · exact nomatch ht.symm.trans hf
    · exact ⟨he, opc, hopc, Host.Outcome.fault.inj (hf.symm.trans hstep)⟩
  · rcases step_next_or_illegal s with ⟨t, ht⟩ | ⟨-, opc, -, hstep⟩
    · exact nomatch ht.symm.trans hr
    · exact nomatch hstep.symm.trans hr

end Sys2Proof.Proofs
end

section
/-! PROOFS. What a line of an encoding table is performed as, and what the operand forms leave to their rules: the shared layer
of the statements that go through the tables of 40_arithmetic.md. -/

namespace Sys2Proof.Proofs
open Sys2Proof Sys2Proof.Machine Sys2Proof.Claims

/-! ### The lines of an encoding table -/

/-- The line of a table is printed as the model has it, and its instruction performs `rule` of the line's operand, with PC past
the line's bytes (30_encoding.md R63). -/
structure RowPerforms {α : Type} (rule : α → State → State) (r : TableRow α) : Prop where
  printed : r.printed
  exec_eq : ∀ s, exec r.instr s = .next (rule r.operand (s.withPc (s.pc + BitVec.ofNat 16 r.bytes)))

theorem RowPerforms.completes {α : Type} {rule : α → State → State} {r : TableRow α} (h : RowPerforms rule r) {s : State}
    {p : State → Prop} (hp : p (rule r.operand (s.withPc (s.pc + BitVec.ofNat 16 r.bytes)))) : Completes r.instr s p :=
  ⟨_, h.exec_eq s, hp⟩

theorem adcRows_perform (bb : Byte) (w : Word) : ∀ r ∈ adcRows bb w, RowPerforms adc r := by
  intro r hr
  fin_cases hr <;> exact ⟨⟨rfl, rfl, rfl, rfl⟩, fun _ => rfl⟩

theorem sbcRows_perform (bb : Byte) (w : Word) : ∀ r ∈ sbcRows bb w, RowPerforms sbc r := by
  intro r hr
  fin_cases hr <;> exact ⟨⟨rfl, rfl, rfl, rfl⟩, fun _ => rfl⟩

theorem cmpRows_perform (bb : Byte) (w : Word) : ∀ r ∈ cmpRows bb w, RowPerforms (compareWith State.a) r := by
  intro r hr
  fin_cases hr <;> exact ⟨⟨rfl, rfl, rfl, rfl⟩, fun _ => rfl⟩

theorem cpxRows_perform (bb : Byte) (w : Word) : ∀ r ∈ cpxRows bb w, RowPerforms (compareWith State.x) r := by
  intro r hr
  fin_cases hr <;> exact ⟨⟨rfl, rfl, rfl, rfl⟩, fun _ => rfl⟩

theorem cpyRows_perform (bb : Byte) (w : Word) : ∀ r ∈ cpyRows bb w, RowPerforms (compareWith State.y) r := by
  intro r hr
  fin_cases hr <;> exact ⟨⟨rfl, rfl, rfl, rfl⟩, fun _ => rfl⟩

theorem incRows_perform (bb : Byte) (w : Word) : ∀ r ∈ incRows bb w, RowPerforms incMem r := by
  intro r hr
  fin_cases hr <;> exact ⟨⟨rfl, rfl, rfl, rfl⟩, fun _ => rfl⟩

theorem decRows_perform (bb : Byte) (w : Word) : ∀ r ∈ decRows bb w, RowPerforms decMem r := by
  intro r hr
  fin_cases hr <;> exact ⟨⟨rfl, rfl, rfl, rfl⟩, fun _ => rfl⟩

/-! ### No access depends on PC -/

theorem load_withPc (s : State) (pc : Word) (a : Word) :
    (s.withPc pc).load a = ((s.load a).1, (s.load a).2.withPc pc) := by
  have hk : (s.withPc pc).kindAt a = s.kindAt a := kindAt_of_platform rfl a
  unfold State.load
  rw [hk]
  cases s.kindAt a <;> rfl

theorem sourceValue_withPc (src : Source) (s : State) (pc : Word) :
    sourceValue src (s.withPc pc) = (operandM src s, (sourceValue src s).2.withPc pc) := by
  cases src with
  | imm bb => rfl
  | mem m => simp only [operandM, sourceValue, addrEA_withPc, load_withPc]

/-- The frame of an instruction: PC is moved past it, then its rule writes. -/
theorem keeps_withPc {w : List Part} {s t : State} {pc : Word} (h : Frame w (s.withPc pc) t) : KeepsAllBut w s t :=
  ((frame_withPc s pc).trans h).keeps

/-! ### N and Z -/

/-- N and Z as `setNZ` of the model leaves them (10_state.md R28). -/
theorem showsNZ_iff (t : State) (r : Byte) : ShowsNZ t r ↔ t.flags.n = r.msb ∧ t.flags.z = decide (r = 0) := by
  rw [ShowsNZ, BitVec.msb_eq_getLsbD_last, Bool.eq_iff_iff (b := decide (r = 0)), decide_eq_true_iff, ← BitVec.toNat_inj]
  rfl

theorem showsNZ_of_flags {t : State} {f : Flags} {r : Byte} (h : t.flags = f.setNZ r) : ShowsNZ t r :=
  (showsNZ_iff t r).2 (h ▸ ⟨rfl, rfl⟩)

end Sys2Proof.Proofs
end

section
/-! PROOFS. ADC and SBC (40_arithmetic.md R100, R110 to R113): the binary sum and its flags on bytes alone, SBC as ADC of the
one's complement, decimal sums and differences, and then the instructions in all their forms. -/

namespace Sys2Proof.Proofs
open Sys2Proof Sys2Proof.Machine Sys2Proof.Claims

/-! ### Bytes as numbers -/

theorem byte_msb (b : Byte) : b.msb = decide (128 ≤ b.toNat) := BitVec.msb_eq_decide b

theorem byte_toInt (b : Byte) : b.toInt = b.toNat - if 128 ≤ b.toNat then 256 else 0 := by
  rw [BitVec.toInt_eq_toNat_cond]
  omega

/-! ### The binary sum -/

theorem addBinary_toNat (f : Flags) (a m : Byte) :
    (f.addBinary a m).1.toNat = (a.toNat + m.toNat + f.c.toNat) % 256 := ofNat8_toNat _

theorem addBinary_c (f : Flags) (a m : Byte) :
    (f.addBinary a m).2.c = true ↔ 255 < a.toNat + m.toNat + f.c.toNat := decide_eq_true_iff

theorem addBinary_v (f : Flags) (a m : Byte) :
    (f.addBinary a m).2.v = true ↔ a.msb = m.msb ∧ (f.addBinary a m).1.msb ≠ a.msb := by
  simp [Flags.addBinary]

/-- V is signed overflow: the exact sum of the two's complement operands and C does not fit in eight bits (10_state.md R30). -/
theorem addBinary_v_iff_overflow (f : Flags) (a m : Byte) :
    (f.addBinary a m).2.v = true ↔ a.toInt + m.toInt + f.c.toNat < -128 ∨ 127 < a.toInt + m.toInt + f.c.toNat := by
  have hsum := addBinary_toNat f a m
  have hc := f.c.toNat_le
  rw [addBinary_v]
  simp only [byte_msb, byte_toInt, ne_eq, decide_eq_decide]
  omega

/-- The 9-bit sum: C is its bit 8 (40_arithmetic.md R113). -/
theorem addBinary_sum (f : Flags) (a m : Byte) :
    256 * (f.addBinary a m).2.c.toNat + (f.addBinary a m).1.toNat = a.toNat + m.toNat + f.c.toNat := by
  have hsum := addBinary_toNat f a m
  have hcarry := addBinary_c f a m
  have hc := f.c.toNat_le
  cases h : (f.addBinary a m).2.c <;> simp [h] at hcarry ⊢ <;> omega

/-! ### The binary difference -/

theorem not_toNat (m : Byte) : (~~~m).toNat = 255 - m.toNat := BitVec.toNat_not

/-- SBC of M is ADC of the one's complement of M (R110). -/
theorem subBinary_eq_addBinary_not (f : Flags) (a m : Byte) : f.subBinary a m = f.addBinary a (~~~m) := by
  have hsign : (a.msb != m.msb) = (a.msb == (~~~m).msb) := by cases a.msb <;> cases h : m.msb <;> simp [h]
  simp only [Flags.subBinary, Flags.addBinary, not_toNat, hsign]

theorem subBinary_toNat (f : Flags) (a m : Byte) :
    ((f.subBinary a m).1.toNat : Int) = ((a.toNat : Int) - m.toNat - (1 - f.c.toNat)) % 256 := by
  rw [subBinary_eq_addBinary_not, addBinary_toNat, not_toNat]
  omega

theorem subBinary_c (f : Flags) (a m : Byte) :
    (f.subBinary a m).2.c = true ↔ 0 ≤ (a.toNat : Int) - m.toNat - (1 - f.c.toNat) := by
  rw [subBinary_eq_addBinary_not, addBinary_c, not_toNat]
  omega

theorem subBinary_v (f : Flags) (a m : Byte) :
    (f.subBinary a m).2.v = true ↔ a.msb ≠ m.msb ∧ (f.subBinary a m).1.msb ≠ a.msb := by
  simp [Flags.subBinary]

theorem not_toInt (m : Byte) : (~~~m).toInt = -m.toInt - 1 := by
  rw [byte_toInt, byte_toInt, not_toNat]
  omega

theorem subBinary_v_iff_overflow (f : Flags) (a m : Byte) :
    (f.subBinary a m).2.v = true ↔
      a.toInt - m.toInt - (1 - f.c.toNat) < -128 ∨ 127 < a.toInt - m.toInt - (1 - f.c.toNat) := by
  rw [subBinary_eq_addBinary_not, addBinary_v_iff_overflow, not_toInt]
  omega

/-- The difference with its borrow `1 - C` (R113). -/
theorem subBinary_difference (f : Flags) (a m : Byte) :
    ((f.subBinary a m).1.toNat : Int) - 256 * (1 - (f.subBinary a m).2.c.toNat) =
      a.toNat - m.toNat - (1 - f.c.toNat) := by
  have hsum := addBinary_sum f a (~~~m)
  rw [← subBinary_eq_addBinary_not, not_toNat] at hsum
  omega

/-! ### Decimal sums and differences -/

/-- The valid BCD bytes and their values, as the model checks and computes them (R111). -/
theorem bcdValue_iff (v : Byte) (k : Nat) : BcdValue v k ↔ validBcd v = true ∧ bcdToNat v = k := by
  rw [BcdValue, validBcd, bcdToNat, Bool.and_eq_true, decide_eq_true_iff, decide_eq_true_iff, and_assoc, eq_comm (a := k)]

theorem bcdValue_natToBcd {k : Nat} (h : k < 100) : BcdValue (natToBcd k) k := by
  have hbyte : 16 * (k / 10) + k % 10 < 256 := by omega
  rw [BcdValue, natToBcd, ofNat8_toNat, Nat.mod_eq_of_lt hbyte]
  omega

theorem bcdValue_lt {v : Byte} {k : Nat} (h : BcdValue v k) : k < 100 := by
  unfold BcdValue at h
  omega

theorem addDecimal_of_bcd {a m : Byte} {ja jm : Nat} (ha : BcdValue a ja) (hm : BcdValue m jm) (c : Bool) :
    addDecimal c a m = some (natToBcd ((ja + jm + c.toNat) % 100), decide (99 < ja + jm + c.toNat)) := by
  obtain ⟨hva, rfl⟩ := (bcdValue_iff a ja).1 ha
  obtain ⟨hvm, rfl⟩ := (bcdValue_iff m jm).1 hm
  simp [addDecimal, hva, hvm]

/-- The model's two branches are one: the difference modulo 100, with C = 1 where it is not negative (R112). -/
theorem subDecimal_of_bcd {a m : Byte} {ja jm : Nat} (ha : BcdValue a ja) (hm : BcdValue m jm) (c : Bool) :
    subDecimal c a m = some (natToBcd (((ja : Int) - jm - (1 - c.toNat)) % 100).toNat,
      decide (0 ≤ (ja : Int) - jm - (1 - c.toNat))) := by
  have hja := bcdValue_lt ha
  have hjm := bcdValue_lt hm
  have hc := c.toNat_le
  obtain ⟨hva, rfl⟩ := (bcdValue_iff a ja).1 ha
  obtain ⟨hvm, rfl⟩ := (bcdValue_iff m jm).1 hm
  simp only [subDecimal, hva, hvm, Bool.and_self, if_true]
  split
  · next hneg => rw [decide_eq_false (by omega), ← Int.add_emod_right, Int.emod_eq_of_lt (by omega) (by omega)]
  · next hpos => rw [decide_eq_true (by omega), Int.emod_eq_of_lt (by omega) (by omega)]

theorem decimalResult_some_a (x : Byte) (c : Bool) (s : State) : (decimalResult (some (x, c)) s).a = x := rfl
theorem decimalResult_some_c (x : Byte) (c : Bool) (s : State) : (decimalResult (some (x, c)) s).flags.c = c := rfl

theorem decimalResult_pc (r : Option (Byte × Bool)) (s : State) : (decimalResult r s).pc = s.pc := by
  cases r <;> rfl

/-! ### The rules of ADC and SBC after the move of PC -/

theorem adc_withPc (src : Source) (s : State) (pc : Word) :
    adc src (s.withPc pc) =
      if s.flags.d then decimalResult (addDecimal s.flags.c s.a (operandM src s)) ((sourceValue src s).2.withPc pc)
      else binaryResult (s.flags.addBinary s.a (operandM src s)) ((sourceValue src s).2.withPc pc) := by
  have hread := sourceValue_onlyDraws src s
  simp only [adc, sourceValue_withPc, State.withPc_flags, State.withPc_a, hread.flags, hread.a]

theorem sbc_withPc (src : Source) (s : State) (pc : Word) :
    sbc src (s.withPc pc) =
      if s.flags.d then decimalResult (subDecimal s.flags.c s.a (operandM src s)) ((sourceValue src s).2.withPc pc)
      else binaryResult (s.flags.subBinary s.a (operandM src s)) ((sourceValue src s).2.withPc pc) := by
  have hread := sourceValue_onlyDraws src s
  simp only [sbc, sourceValue_withPc, State.withPc_flags, State.withPc_a, hread.flags, hread.a]

theorem adc_binary {s : State} (hd : s.flags.d = false) (src : Source) (pc : Word) :
    adc src (s.withPc pc) =
      binaryResult (s.flags.addBinary s.a (operandM src s)) ((sourceValue src s).2.withPc pc) := by
  simp [adc_withPc, hd]

theorem sbc_binary {s : State} (hd : s.flags.d = false) (src : Source) (pc : Word) :
    sbc src (s.withPc pc) =
      binaryResult (s.flags.subBinary s.a (operandM src s)) ((sourceValue src s).2.withPc pc) := by
  simp [sbc_withPc, hd]

theorem adc_decimal {s : State} (hd : s.flags.d = true) (src : Source) (pc : Word) :
    adc src (s.withPc pc) =
      decimalResult (addDecimal s.flags.c s.a (operandM src s)) ((sourceValue src s).2.withPc pc) := by
  simp [adc_withPc, hd]

theorem sbc_decimal {s : State} (hd : s.flags.d = true) (src : Source) (pc : Word) :
    sbc src (s.withPc pc) =
      decimalResult (subDecimal s.flags.c s.a (operandM src s)) ((sourceValue src s).2.withPc pc) := by
  simp [sbc_withPc, hd]

theorem showsNZ_addBinary (f : Flags) (a m : Byte) (s : State) :
    ShowsNZ (binaryResult (f.addBinary a m) s) (f.addBinary a m).1 := (showsNZ_iff _ _).2 ⟨rfl, rfl⟩

theorem showsNZ_subBinary (f : Flags) (a m : Byte) (s : State) :
    ShowsNZ (binaryResult (f.subBinary a m) s) (f.subBinary a m).1 := (showsNZ_iff _ _).2 ⟨rfl, rfl⟩

/-- A binary ADC # gives the 9-bit sum in C and A, and leaves D = 0 for the next one. -/
theorem exec_adcImm_sum {s : State} (hd : s.flags.d = false) (m : Byte) :
    ∃ t, exec (.adcImm m) s = .next t ∧ t.flags.d = false ∧
      256 * t.flags.c.toNat + t.a.toNat = s.a.toNat + m.toNat + s.flags.c.toNat := by
  refine ⟨adc (.imm m) (s.withPc (s.pc + 2)), rfl, ?_⟩
  rw [adc_binary hd]
  exact ⟨hd, addBinary_sum _ _ _⟩

/-- A binary SBC # gives the difference with its borrow `1 - C`, and leaves D = 0 for the next one. -/
theorem exec_sbcImm_difference {s : State} (hd : s.flags.d = false) (m : Byte) :
    ∃ t, exec (.sbcImm m) s = .next t ∧ t.flags.d = false ∧
      (t.a.toNat : Int) - 256 * (1 - t.flags.c.toNat) = s.a.toNat - m.toNat - (1 - s.flags.c.toNat) := by
  refine ⟨sbc (.imm m) (s.withPc (s.pc + 2)), rfl, ?_⟩
  rw [sbc_binary hd]
  exact ⟨hd, subBinary_difference _ _ _⟩

/-! ### The statements -/

/-- Settles O24: the sum, carry and overflow of the bytes, and the frame of ADC. -/
theorem adcBinary : Obligations.AdcBinary := by
  intro bb w s hd r hr
  have hrow := adcRows_perform bb w r hr
  have hframe := keeps_withPc (frame_adc r.operand (s.withPc (s.pc + BitVec.ofNat 16 r.bytes)))
  refine ⟨hrow.printed, hrow.completes ?_⟩
  rw [adc_binary hd] at hframe ⊢
  exact ⟨addBinary_toNat _ _ _, addBinary_c _ _ _, addBinary_v _ _ _, showsNZ_addBinary _ _ _ _, hframe, rfl⟩

/-- Settles O26: the difference, borrow and overflow of the bytes, and the frame of SBC. -/
theorem sbcBinary : Obligations.SbcBinary := by
  intro bb w s hd r hr
  have hrow := sbcRows_perform bb w r hr
  have hframe := keeps_withPc (frame_sbc r.operand (s.withPc (s.pc + BitVec.ofNat 16 r.bytes)))
  refine ⟨hrow.printed, hrow.completes ?_⟩
  rw [sbc_binary hd] at hframe ⊢
  exact ⟨subBinary_toNat _ _ _, subBinary_c _ _ _, subBinary_v _ _ _, showsNZ_subBinary _ _ _ _, hframe, rfl⟩

/-- Settles O25: valid operands give the decimal sum, and any operands stay in the frame of ADC. -/
theorem adcDecimal : Obligations.AdcDecimal := by
  intro bb w s hd r hr
  have hframe := keeps_withPc (frame_adc r.operand (s.withPc (s.pc + BitVec.ofNat 16 r.bytes)))
  refine (adcRows_perform bb w r hr).completes ?_
  rw [adc_decimal hd] at hframe ⊢
  refine ⟨fun ja jm ha hm => ?_, hframe, decimalResult_pc _ _⟩
  rw [addDecimal_of_bcd ha hm, decimalResult_some_a, decimalResult_some_c]
  exact ⟨bcdValue_natToBcd (Nat.mod_lt _ (by decide)), decide_eq_true_iff⟩

/-- Settles O27: valid operands give the decimal difference, and any operands stay in the frame of SBC. -/
theorem sbcDecimal : Obligations.SbcDecimal := by
  intro bb w s hd r hr
  have hframe := keeps_withPc (frame_sbc r.operand (s.withPc (s.pc + BitVec.ofNat 16 r.bytes)))
  refine (sbcRows_perform bb w r hr).completes ?_
  rw [sbc_decimal hd] at hframe ⊢
  refine ⟨fun ja jm ha hm => ?_, hframe, decimalResult_pc _ _⟩
  rw [subDecimal_of_bcd ha hm, decimalResult_some_a, decimalResult_some_c]
  exact ⟨⟨_, bcdValue_natToBcd (by omega), Int.toNat_of_nonneg (by omega)⟩, decide_eq_true_iff⟩

/-- Settles O28: V of the byte sum is signed overflow, and SBC is ADC of the complement, whose signed value is `-M - 1`. -/
theorem overflowIsSignedOverflow : Obligations.OverflowIsSignedOverflow := by
  refine fun bb w s hd => ⟨fun r hr => (adcRows_perform bb w r hr).completes ?_,
    fun r hr => (sbcRows_perform bb w r hr).completes ?_⟩
  · rw [adc_binary hd]
    exact addBinary_v_iff_overflow _ _ _
  · rw [sbc_binary hd]
    exact subBinary_v_iff_overflow _ _ _

/-- Settles O29: the two rules have one binary result. -/
theorem sbcIsAdcOfComplement : Obligations.SbcIsAdcOfComplement := by
  intro s bb hd
  refine ⟨sbc (.imm bb) (s.withPc (s.pc + 2)), rfl, ?_⟩
  rw [sbc_binary hd, operandM, sourceValue, subBinary_eq_addBinary_not]
  exact congrArg Host.Outcome.next (adc_binary hd (.imm (~~~bb)) _)

/-- Settles O30: the carry (or borrow) out of the low bytes is the one into the high bytes. -/
theorem carryChainsTwoBytes : Obligations.CarryChainsTwoBytes := by
  refine fun s ah ml mh hd => ⟨?_, ?_⟩
  · obtain ⟨t, ht, htd, hlow⟩ := exec_adcImm_sum hd ml
    obtain ⟨u, hu, -, hhigh⟩ := exec_adcImm_sum (s := { t with a := ah }) htd mh
    refine ⟨t, u, ht, hu, ?_⟩
    dsimp only at hhigh
    omega
  · obtain ⟨t, ht, htd, hlow⟩ := exec_sbcImm_difference hd ml
    obtain ⟨u, hu, -, hhigh⟩ := exec_sbcImm_difference (s := { t with a := ah }) htd mh
    refine ⟨t, u, ht, hu, ?_⟩
    dsimp only at hhigh
    omega

end Sys2Proof.Proofs
end

section
/-! PROOFS. Compares, increments and decrements (40_arithmetic.md R101 to R109). -/

namespace Sys2Proof.Proofs
open Sys2Proof Sys2Proof.Machine Sys2Proof.Claims

/-! ### Compares -/

/-- `reg` is not moved by PC, nor by the accesses of an operand form (30_encoding.md R78). -/
def IsRegister (reg : State → Byte) : Prop :=
  ∀ (s : State) (pc : Word) (t : State), OnlyDraws s t → reg (t.withPc pc) = reg s

/-- The three compares: each group's register is the one its rows are performed with. -/
theorem compareRows_perform (bb : Byte) (w : Word) (s : State) :
    ∀ g ∈ [(s.a, cmpRows bb w), (s.x, cpxRows bb w), (s.y, cpyRows bb w)], ∀ r ∈ g.2,
      ∃ reg, IsRegister reg ∧ g.1 = reg s ∧ RowPerforms (compareWith reg) r := by
  intro g hg r hr
  fin_cases hg
  · exact ⟨State.a, fun _ _ _ h => h.a, rfl, cmpRows_perform bb w r hr⟩
  · exact ⟨State.x, fun _ _ _ h => h.x, rfl, cpxRows_perform bb w r hr⟩
  · exact ⟨State.y, fun _ _ _ h => h.y, rfl, cpyRows_perform bb w r hr⟩

theorem compareWith_withPc {reg : State → Byte} (hreg : IsRegister reg) (src : Source) (s : State) (pc : Word) :
    compareWith reg src (s.withPc pc) =
      ((sourceValue src s).2.withPc pc).withFlags (s.flags.compare (reg s) (operandM src s)) := by
  have hread := sourceValue_onlyDraws src s
  simp only [compareWith, sourceValue_withPc, State.withPc_flags, hread.flags, hreg s pc _ hread]

/-- The 8-bit difference is the integer difference of the bytes, narrowed. -/
theorem ofInt_toNat_sub (r m : Byte) : BitVec.ofInt 8 (r.toNat - m.toNat) = r - m := by
  apply BitVec.eq_of_toNat_eq
  rw [BitVec.toNat_ofInt, BitVec.toNat_sub]
  omega

theorem showsNZ_compare (s : State) (f : Flags) (r m : Byte) :
    ShowsNZ (s.withFlags (f.compare r m)) (BitVec.ofInt 8 (r.toNat - m.toNat)) := by
  rw [ofInt_toNat_sub]
  exact (showsNZ_iff _ _).2 ⟨rfl, rfl⟩

theorem compare_z_iff (f : Flags) (r m : Byte) : (f.compare r m).z = true ↔ r = m := by
  rw [compare_z, decide_eq_true_iff]
  bv_omega

/-- Settles O31: the flags of the model's compare, on a register that reading the operand leaves. -/
theorem compareResults : Obligations.CompareResults := by
  intro bb w s g hg r hr
  obtain ⟨reg, hreg, hg1, hrow⟩ := compareRows_perform bb w s g hg r hr
  have hframe := keeps_withPc (frame_compareWith reg r.operand (s.withPc (s.pc + BitVec.ofNat 16 r.bytes)))
  refine ⟨hrow.printed, hrow.completes ?_⟩
  rw [compareWith_withPc hreg] at hframe ⊢
  rw [hg1]
  exact ⟨decide_eq_true_iff, showsNZ_compare _ _ _ _, compare_z_iff _ _ _, hframe, rfl⟩

/-! ### INC and DEC -/

theorem targetRead_withPc (m : Addr) (s : State) (pc : Word) :
    targetRead (.mem m) (s.withPc pc) = (targetRead (.mem m) s).withPc pc := by
  simp only [targetRead, addrEA_withPc, load_withPc]

theorem targetValue_withPc (m : Addr) (s : State) (pc : Word) :
    targetValue (.mem m) (s.withPc pc) = targetM (.mem m) s := by
  simp only [targetValue, targetM, addrEA_withPc, load_withPc]

/-- A read-modify-write of memory, PC moved: the result is stored at the effective address of the state before. -/
theorem readWrite_mem_withPc (m : Addr) (f : Flags → Byte → Byte × Flags) (s : State) (pc : Word) :
    readWrite (.mem m) f (s.withPc pc) =
      (((targetRead (.mem m) s).withPc pc).store (addrEA m s).1 (f s.flags (targetM (.mem m) s)).1).withFlags
        (f s.flags (targetM (.mem m) s)).2 := by
  simp only [readWrite_mem, targetRead_withPc, targetValue_withPc, addrEA_withPc, State.withPc_flags]

theorem readWrite_mem_storedOnly (m : Addr) (f : Flags → Byte → Byte × Flags) (s : State) (pc : Word) :
    StoredOnly s (readWrite (.mem m) f (s.withPc pc)) (addrEA m s).1 (f s.flags (targetM (.mem m) s)).1 := by
  intro b
  have hread := targetRead_onlyDraws (.mem m) s
  have hkind : ((targetRead (.mem m) s).withPc pc).kindAt (addrEA m s).1 = s.kindAt (addrEA m s).1 :=
    kindAt_of_platform hread.platform _
  rw [readWrite_mem_withPc, State.withFlags_mem, store_read, hkind, State.withPc_mem, hread.mem]

theorem readWrite_mem_flags (m : Addr) (f : Flags → Byte → Byte × Flags) (s : State) (pc : Word) :
    (readWrite (.mem m) f (s.withPc pc)).flags = (f s.flags (targetM (.mem m) s)).2 := by
  rw [readWrite_mem_withPc, State.withFlags_flags]

theorem readWrite_mem_pc (m : Addr) (f : Flags → Byte → Byte × Flags) (s : State) (pc : Word) :
    (readWrite (.mem m) f (s.withPc pc)).pc = pc := by
  rw [readWrite_mem_withPc, State.withFlags_pc, store_pc, State.withPc_pc]

/-- `f` adds `k` modulo 256, and N and Z show the sum (R104, R107). -/
structure AddsConstant (k : Nat) (f : Flags → Byte → Byte × Flags) : Prop where
  value : ∀ (g : Flags) (v : Byte), (f g v).1 = BitVec.ofNat 8 (v.toNat + k)
  flags : ∀ (g : Flags) (v : Byte), (f g v).2 = g.setNZ (f g v).1

theorem inc_addsConstant : AddsConstant 1 Flags.inc where
  value := fun g v => by
    rw [Flags.inc]
    bv_omega
  flags := fun _ _ => rfl

theorem dec_addsConstant : AddsConstant 255 Flags.dec where
  value := fun g v => by
    rw [Flags.dec]
    bv_omega
  flags := fun _ _ => rfl

theorem incDecRows_perform (bb : Byte) (w : Word) : ∀ g ∈ [(1, incRows bb w), (255, decRows bb w)], ∀ r ∈ g.2,
    ∃ f, AddsConstant g.1 f ∧ RowPerforms (fun m => readWrite (.mem m) f) r := by
  intro g hg r hr
  fin_cases hg
  · exact ⟨Flags.inc, inc_addsConstant, incRows_perform bb w r hr⟩
  · exact ⟨Flags.dec, dec_addsConstant, decRows_perform bb w r hr⟩

/-- Settles O32: the read-modify-write of memory whose result is the byte plus 1 or 255. -/
theorem incDecMemory : Obligations.IncDecMemory := by
  intro bb w s g hg r hr
  obtain ⟨f, hf, hrow⟩ := incDecRows_perform bb w g hg r hr
  have hstored := readWrite_mem_storedOnly r.operand f s (s.pc + BitVec.ofNat 16 r.bytes)
  have hflags := readWrite_mem_flags r.operand f s (s.pc + BitVec.ofNat 16 r.bytes)
  rw [hf.value] at hstored
  rw [hf.flags, hf.value] at hflags
  exact ⟨hrow.printed, hrow.completes ⟨hstored, showsNZ_of_flags hflags,
    keeps_withPc (frame_readWrite_mem (flagsWithin_setNZ hf.flags) _ _), readWrite_mem_pc _ _ _ _⟩⟩

/-! ### INX, INY, DEX, DEY -/

/-- A one-byte instruction whose rule loads X with a result: X, N and Z show it, and nothing else is written. -/
theorem completes_putX {i : Instr} {s : State} {r : Byte} {k : Nat} (hr : r.toNat = k)
    (h : exec i s = .next ((s.withPc (s.pc + 1)).putX r)) :
    Completes i s fun t => t.x.toNat = k ∧ ShowsNZ t t.x ∧ KeepsAllBut [.x, .n, .z] s t ∧ PastIt 1 s t :=
  ⟨_, h, hr, showsNZ_of_flags rfl, keeps_withPc (frame_putX _ r), rfl⟩

theorem completes_putY {i : Instr} {s : State} {r : Byte} {k : Nat} (hr : r.toNat = k)
    (h : exec i s = .next ((s.withPc (s.pc + 1)).putY r)) :
    Completes i s fun t => t.y.toNat = k ∧ ShowsNZ t t.y ∧ KeepsAllBut [.y, .n, .z] s t ∧ PastIt 1 s t :=
  ⟨_, h, hr, showsNZ_of_flags rfl, keeps_withPc (frame_putY _ r), rfl⟩

theorem byte_succ_toNat (b : Byte) : (b + 1).toNat = (b.toNat + 1) % 256 := BitVec.toNat_add b 1

theorem byte_pred_toNat (b : Byte) : (b - 1).toNat = (b.toNat + 255) % 256 := by bv_omega

/-- Settles O33: the four encodings, and a register loaded with its successor or predecessor. -/
theorem incDecRegisters : Obligations.IncDecRegisters :=
  ⟨⟨⟨rfl, rfl⟩, ⟨rfl, rfl⟩, ⟨rfl, rfl⟩, ⟨rfl, rfl⟩⟩, fun s =>
    ⟨completes_putX (byte_succ_toNat s.x) rfl, completes_putY (byte_succ_toNat s.y) rfl,
      completes_putX (byte_pred_toNat s.x) rfl, completes_putY (byte_pred_toNat s.y) rfl⟩⟩

end Sys2Proof.Proofs
end

section
/-! PROOFS. AND, EOR, ORA and BIT (41_logic_shift.md R120, R122, R123, R125). -/

namespace Sys2Proof.Proofs
open Sys2Proof Sys2Proof.Machine Sys2Proof.Claims

/-! ### AND, EOR, ORA -/

theorem logicRows_perform (bb : Byte) (w : Word) :
    ∀ g ∈ [((· &&& ·), andRows bb w), ((· ^^^ ·), eorRows bb w), ((· ||| ·), oraRows bb w)], ∀ r ∈ g.2,
      RowPerforms (logicWith g.1) r := by
  intro g hg r hr
  fin_cases hg <;> fin_cases hr <;> exact ⟨⟨rfl, rfl, rfl, rfl⟩, fun _ => rfl⟩

theorem logicWith_withPc (op : Byte → Byte → Byte) (src : Source) (s : State) (pc : Word) :
    logicWith op src (s.withPc pc) = ((sourceValue src s).2.withPc pc).putA (op s.a (operandM src s)) := by
  simp only [logicWith, sourceValue_withPc, State.withPc_a, (sourceValue_onlyDraws src s).a]

/-- A line of a logic table whose operation combines each pair of bits by `bit`. -/
theorem logicRow_completes {op : Byte → Byte → Byte} {bit : Bool → Bool → Bool} {r : TableRow Source}
    (hrow : RowPerforms (logicWith op) r) (hop : ∀ a m k, (op a m).getLsbD k = bit (a.getLsbD k) (m.getLsbD k))
    (s : State) :
    r.printed ∧ Completes r.instr s fun t =>
      (∀ k < 8, t.a.getLsbD k = bit (s.a.getLsbD k) ((operandM r.operand s).getLsbD k)) ∧ ShowsNZ t t.a ∧
        KeepsAllBut [.a, .n, .z] s t ∧ PastIt r.bytes s t := by
  have hframe := keeps_withPc (frame_logicWith op r.operand (s.withPc (s.pc + BitVec.ofNat 16 r.bytes)))
  refine ⟨hrow.printed, hrow.completes ?_⟩
  rw [logicWith_withPc] at hframe ⊢
  exact ⟨fun k _ => hop _ _ k, showsNZ_of_flags rfl, hframe, rfl⟩

/-- Settles O34: each of the three operations of the model is its bit operation on every pair of bits. -/
theorem logicResults : Obligations.LogicResults := fun bb w s =>
  ⟨fun r hr => logicRow_completes (logicRows_perform bb w (_, andRows bb w) (by simp) r hr)
      (fun _ _ _ => BitVec.getLsbD_and) s,
    fun r hr => logicRow_completes (logicRows_perform bb w (_, eorRows bb w) (by simp) r hr)
      (fun _ _ _ => BitVec.getLsbD_xor) s,
    fun r hr => logicRow_completes (logicRows_perform bb w (_, oraRows bb w) (by simp) r hr)
      (fun _ _ _ => BitVec.getLsbD_or) s⟩

/-! ### BIT -/

theorem bitRows_perform (bb : Byte) (w : Word) : ∀ r ∈ bitRows bb w, RowPerforms bitTest r := by
  intro r hr
  fin_cases hr <;> exact ⟨⟨rfl, rfl, rfl, rfl⟩, fun _ => rfl⟩

theorem bitTest_withPc (src : Source) (s : State) (pc : Word) :
    bitTest src (s.withPc pc) =
      ((sourceValue src s).2.withPc pc).withFlags (s.flags.bitTest s.a (operandM src s)) := by
  have hread := sourceValue_onlyDraws src s
  simp only [bitTest, sourceValue_withPc, State.withPc_flags, State.withPc_a, hread.flags, hread.a]

/-- Z after BIT: no bit is set in both bytes. -/
theorem bitTest_z_iff (f : Flags) (a m : Byte) :
    (f.bitTest a m).z = true ↔ ∀ k < 8, (a.getLsbD k && m.getLsbD k) = false := by
  rw [Flags.bitTest, decide_eq_true_iff, BitVec.eq_of_getLsbD_eq_iff]
  simp only [BitVec.getLsbD_and, BitVec.ofNat_eq_ofNat, BitVec.getLsbD_zero]

/-- Settles O35: the flags of the model's BIT, on an A that reading the operand leaves. -/
theorem bitTest : Obligations.BitTest := by
  intro bb w s r hr
  have hrow := bitRows_perform bb w r hr
  have hframe := keeps_withPc (frame_bitTest r.operand (s.withPc (s.pc + BitVec.ofNat 16 r.bytes)))
  refine ⟨hrow.printed, hrow.completes ?_⟩
  rw [bitTest_withPc] at hframe ⊢
  exact ⟨rfl, rfl, bitTest_z_iff _ _ _, hframe, rfl⟩

end Sys2Proof.Proofs
end

section
/-! PROOFS. Shifts and rotates (41_logic_shift.md R121, R124, R126 to R128): where each bit of the operand goes, then what
their forms write. -/

namespace Sys2Proof.Proofs
open Sys2Proof Sys2Proof.Machine Sys2Proof.Claims

/-! ### The moved byte, bit by bit -/

/-- ASL puts a 0 below the byte and keeps the low eight of the nine bits. -/
theorem asl_eq_concat (f : Flags) (m : Byte) : (f.asl m).1 = (m.concat false).setWidth 8 := by
  apply BitVec.eq_of_toNat_eq
  simp [Flags.asl, BitVec.toNat_concat]

/-- ROL puts the old C below the byte and keeps the low eight of the nine bits. -/
theorem rol_eq_concat (f : Flags) (m : Byte) : (f.rol m).1 = (m.concat f.c).setWidth 8 := by
  apply BitVec.eq_of_toNat_eq
  rw [Flags.rol, ofNat8_toNat, BitVec.toNat_setWidth, BitVec.toNat_concat]
  omega

/-- ROR puts the old C above the byte and keeps the high eight of the nine bits. -/
theorem ror_eq_cons (f : Flags) (m : Byte) : (f.ror m).1 = (BitVec.cons f.c m).extractLsb' 1 8 := by
  apply BitVec.eq_of_toNat_eq
  rw [Flags.ror, ofNat8_toNat, BitVec.extractLsb'_toNat, BitVec.toNat_cons', Nat.shiftLeft_eq, Nat.shiftRight_eq_div_pow]
  omega

theorem concat_bit_zero (m : Byte) (c : Bool) : ((m.concat c).setWidth 8).getLsbD 0 = c := by
  simp

theorem concat_bit_succ (m : Byte) (c : Bool) : ∀ k < 7, ((m.concat c).setWidth 8).getLsbD (k + 1) = m.getLsbD k := by
  intro k hk
  rw [BitVec.getLsbD_setWidth, BitVec.getLsbD_concat_succ, decide_eq_true (by omega), Bool.true_and]

theorem ror_bit_seven (f : Flags) (m : Byte) : (f.ror m).1.getLsbD 7 = f.c := by
  simp [ror_eq_cons, BitVec.getElem_cons]

theorem ror_bit (f : Flags) (m : Byte) : ∀ k < 7, (f.ror m).1.getLsbD k = m.getLsbD (k + 1) := by
  intro k hk
  rw [ror_eq_cons, BitVec.getLsbD_extractLsb', BitVec.getLsbD_cons, if_neg (by omega), decide_eq_true (by omega),
    Bool.true_and, Nat.add_comm]

theorem lsr_toNat (f : Flags) (m : Byte) : (f.lsr m).1.toNat = m.toNat / 2 := by
  have hm := m.isLt
  rw [Flags.lsr, ofNat8_toNat]
  omega

/-! ### What a form on A or on memory writes -/

theorem shiftRows_perform (bb : Byte) (w : Word) :
    ∀ g ∈ [(Flags.asl, aslRows bb w), (Flags.rol, rolRows bb w), (Flags.ror, rorRows bb w), (Flags.lsr, lsrRows bb w)],
      ∀ r ∈ g.2, RowPerforms (fun tg => readWrite tg g.1) r := by
  intro g hg r hr
  fin_cases hg <;> fin_cases hr <;> exact ⟨⟨rfl, rfl, rfl, rfl⟩, fun _ => rfl⟩

/-- A read-modify-write, PC moved: the result of the old operand goes where that was, and the flags are `f`'s. -/
theorem readWrite_writesTarget {written : List Part} {f : Flags → Byte → Byte × Flags} (hf : FlagsWithin written f)
    (tg : Target) (s : State) (pc : Word) :
    WritesTarget tg written s (readWrite tg f (s.withPc pc)) (f s.flags (targetM tg s)).1 ∧
      (readWrite tg f (s.withPc pc)).flags = (f s.flags (targetM tg s)).2 ∧ (readWrite tg f (s.withPc pc)).pc = pc := by
  cases tg with
  | acc => exact ⟨⟨rfl, keeps_withPc (frame_readWrite_acc hf _)⟩, rfl, rfl⟩
  | mem m =>
    exact ⟨⟨readWrite_mem_storedOnly m f s pc, keeps_withPc (frame_readWrite_mem hf m _)⟩,
      readWrite_mem_flags m f s pc, readWrite_mem_pc m f s pc⟩

/-- N and Z show the result, C is the shift's own, V, D and I stay (R121, R126, R127). -/
def SetsNZC (f : Flags → Byte → Byte × Flags) : Prop :=
  ∀ g m, (f g m).2 = { g.setNZ (f g m).1 with c := (f g m).2.c }

theorem SetsNZC.flagsWithin {f : Flags → Byte → Byte × Flags} (hf : SetsNZC f) : FlagsWithin [.c, .z, .n] f :=
  flagsWithin_shift fun g m => by
    rw [hf]
    exact ⟨rfl, rfl, rfl⟩

/-- A line of a shift's table: what is known of the carry and of the result holds after the instruction. -/
theorem shiftRow_completes {f : Flags → Byte → Byte × Flags} {r : TableRow Target}
    (hrow : RowPerforms (fun tg => readWrite tg f) r) (hf : SetsNZC f) {s : State} {out : Bool}
    {enters moved : Byte → Prop} (hout : (f s.flags (targetM r.operand s)).2.c = out)
    (henters : enters (f s.flags (targetM r.operand s)).1) (hmoved : moved (f s.flags (targetM r.operand s)).1) :
    r.printed ∧ Completes r.instr s fun t => ∃ v : Byte,
      WritesTarget r.operand [.c, .z, .n] s t v ∧ ShowsNZ t v ∧ t.flags.c = out ∧ enters v ∧ moved v ∧
        PastIt r.bytes s t := by
  obtain ⟨hwrites, hflags, hpc⟩ :=
    readWrite_writesTarget hf.flagsWithin r.operand s (s.pc + BitVec.ofNat 16 r.bytes)
  refine ⟨hrow.printed, hrow.completes ⟨_, hwrites, (showsNZ_iff _ _).2 ?_, hflags ▸ hout, henters, hmoved, hpc⟩⟩
  rw [hflags, hf]
  exact ⟨rfl, rfl⟩

/-- Settles O36: ASL and ROL put 0 or the old C below the byte, ROR puts the old C above it. -/
theorem shiftAndRotateResults : Obligations.ShiftAndRotateResults := fun bb w _ =>
  ⟨fun r hr => shiftRow_completes (shiftRows_perform bb w (Flags.asl, aslRows bb w) (by simp) r hr) (fun _ _ => rfl) rfl
      (asl_eq_concat _ _ ▸ concat_bit_zero _ _) (asl_eq_concat _ _ ▸ concat_bit_succ _ _),
    fun r hr => shiftRow_completes (shiftRows_perform bb w (Flags.rol, rolRows bb w) (by simp) r hr) (fun _ _ => rfl) rfl
      (rol_eq_concat _ _ ▸ concat_bit_zero _ _) (rol_eq_concat _ _ ▸ concat_bit_succ _ _),
    fun r hr => shiftRow_completes (shiftRows_perform bb w (Flags.ror, rorRows bb w) (by simp) r hr) (fun _ _ => rfl) rfl
      (ror_bit_seven _ _) (ror_bit _ _)⟩

/-! ### LSR -/

theorem lsrNegative_of_unchanged (h : Config.lsrN = .unchanged) (old : Bool) : lsrNegative old = old := by
  rw [lsrNegative, h]

theorem lsrNegative_of_cleared (h : Config.lsrN = .cleared) (old : Bool) : lsrNegative old = false := by
  rw [lsrNegative, h]

theorem lsr_z_iff (f : Flags) (m : Byte) : (f.lsr m).2.z = true ↔ (f.lsr m).1.toNat = 0 :=
  decide_eq_true_iff.trans BitVec.toNat_inj.symm

/-- Settles O37: the read-modify-write that halves the operand; N is what the open parameter `LSR_N` makes of it. -/
theorem lsrResults : Obligations.LsrResults := by
  intro bb w s r hr
  have hrow := shiftRows_perform bb w (Flags.lsr, lsrRows bb w) (by simp) r hr
  obtain ⟨hwrites, hflags, hpc⟩ := readWrite_writesTarget (f := Flags.lsr)
    (flagsWithin_shift fun _ _ => ⟨rfl, rfl, rfl⟩) r.operand s (s.pc + BitVec.ofNat 16 r.bytes)
  refine ⟨hrow.printed, hrow.completes ⟨_, hwrites, ?_⟩⟩
  rw [hflags]
  exact ⟨rfl, lsr_toNat _ _, lsr_z_iff _ _, fun h => lsrNegative_of_unchanged h _, fun h => lsrNegative_of_cleared h _, hpc⟩

end Sys2Proof.Proofs
end

section
/-! PROOFS. ROL of A as a rotation of nine bits (41_logic_shift.md R126). -/

namespace Sys2Proof.Proofs
open Sys2Proof Sys2Proof.Machine Sys2Proof.Claims

/-- Two rotations left are one by the sum of their distances. -/
theorem rotateLeft_rotateLeft {w : Nat} (x : BitVec w) (j k : Nat) :
    (x.rotateLeft j).rotateLeft k = x.rotateLeft (j + k) := by
  refine BitVec.eq_of_getMsbD_eq fun i hi => ?_
  have hmod : (k + i) % w < w := Nat.mod_lt _ (by omega)
  simp [BitVec.getMsbD_rotateLeft, hi, hmod, Nat.add_assoc]

theorem rotateLeft_zero {w : Nat} (x : BitVec w) : x.rotateLeft 0 = x := by
  refine BitVec.eq_of_getMsbD_eq fun i hi => ?_
  simp [BitVec.getMsbD_rotateLeft, hi, Nat.mod_eq_of_lt]

/-- C above the byte, rotated one place to the left, is the new C above the new byte. -/
theorem cons_rol (f : Flags) (m : Byte) :
    BitVec.cons (f.rol m).2.c (f.rol m).1 = (BitVec.cons f.c m).rotateLeft 1 := by
  refine BitVec.eq_of_getLsbD_eq fun k hk => ?_
  rw [rol_eq_concat, BitVec.getLsbD_cons, BitVec.getLsbD_rotateLeft_of_le (by decide)]
  cases k with
  | zero => simp [BitVec.getElem_cons]
  | succ k =>
    by_cases htop : k = 7
    · subst htop
      simp [Flags.rol, BitVec.getElem_cons]
    · have hk7 : k < 7 := by omega
      have hk8 : k ≠ 8 := by omega
      rw [if_neg (by omega), concat_bit_succ m f.c k hk7]
      simp [BitVec.getLsbD_cons, hk, hk8]

/-- What a ROL A makes of the state. -/
def rolA (s : State) : State := readWrite .acc Flags.rol (s.withPc (s.pc + 1))

theorem exec_rolAcc (s : State) : exec .rolAcc s = .next (rolA s) := rfl

/-- C and A as one word of nine bits, C on top. -/
def carryAndA (s : State) : BitVec 9 := BitVec.cons s.flags.c s.a

theorem carryAndA_inj {s t : State} (h : carryAndA s = carryAndA t) : s.a = t.a ∧ s.flags.c = t.flags.c := by
  have ha := congrArg (BitVec.setWidth 8) h
  have hc := congrArg BitVec.msb h
  rw [carryAndA, carryAndA, BitVec.setWidth_cons, BitVec.setWidth_cons] at ha
  rw [carryAndA, carryAndA, BitVec.msb_cons, BitVec.msb_cons] at hc
  exact ⟨ha, hc⟩

theorem carryAndA_rolA (s : State) : carryAndA (rolA s) = (carryAndA s).rotateLeft 1 := cons_rol s.flags s.a

theorem carryAndA_rolA_iterate (s : State) (k : Nat) : carryAndA (rolA^[k] s) = (carryAndA s).rotateLeft k := by
  induction k with
  | zero => exact (rotateLeft_zero _).symm
  | succ k ih => rw [Function.iterate_succ_apply', carryAndA_rolA, ih, rotateLeft_rotateLeft]

/-- Settles O38: nine rotations of nine bits by one place are none. -/
theorem nineRolsRestore : Obligations.NineRolsRestore := fun s => by
  have hnine : carryAndA (rolA^[9] s) = carryAndA s := by
    rw [carryAndA_rolA_iterate, ← BitVec.rotateLeft_mod_eq_rotateLeft]
    exact rotateLeft_zero _
  have hstep : ∀ k, exec .rolAcc (rolA^[k] s) = .next (rolA^[k + 1] s) := fun k => by
    rw [exec_rolAcc, Function.iterate_succ_apply']
  exact ⟨fun k => rolA^[k] s, rfl, fun k _ => hstep k, carryAndA_inj hnine⟩

end Sys2Proof.Proofs
end

section
/-! PROOFS. Control transfer (42_branch_jump.md R140 to R151): where PC goes, and what a call leaves on the stack for the
return from it. -/

namespace Sys2Proof.Proofs
open Sys2Proof Sys2Proof.Machine Sys2Proof.Claims

/-! ### Conditional branches -/

/-- The branch target is the integer sum of the next instruction's address and the signed offset, narrowed to a word. -/
theorem branchTarget_eq_ofInt (next : Word) (bb : Byte) :
    branchTarget next bb = BitVec.ofInt 16 (next.toNat + bb.toInt) := by
  rw [BitVec.ofInt_add, BitVec.ofInt_natCast, BitVec.ofNat_toNat, BitVec.setWidth_eq]
  rfl

theorem branchTarget_toNat (next : Word) (bb : Byte) :
    ((branchTarget next bb).toNat : Int) = (next.toNat + bb.toInt) % 65536 := by
  rw [branchTarget_eq_ofInt, BitVec.toNat_ofInt]
  omega

theorem branchIf_pc (cond : Flags → Bool) (bb : Byte) (s : State) :
    (branchIf cond bb s).pc = if cond s.flags then branchTarget s.pc bb else s.pc := by
  unfold branchIf
  split <;> rfl

/-- Each line of the branch table is encoded in the line's opcode byte and the offset, and branches on the line's condition. -/
theorem branchRows_perform {bb : Byte} {f : Flags} : ∀ r ∈ branchRows bb f,
    encode r.2.1 = [r.1, bb] ∧ ∃ cond : Flags → Bool, cond f = r.2.2 ∧
      ∀ s, exec r.2.1 s = .next (branchIf cond bb (s.withPc (s.pc + 2))) := by
  intro r hr
  fin_cases hr <;> exact ⟨rfl, _, rfl, fun _ => rfl⟩

/-- The lines are four pairs of complementary conditions, and one of each pair holds. -/
theorem branchRows_countP_taken (bb : Byte) (f : Flags) : (branchRows bb f).countP (fun r => r.2.2) = 4 := by
  have hpair : ∀ c : Bool, (if (!c) = true then 1 else 0) + (if c = true then 1 else 0) = 1 := by decide
  have hc := hpair f.c
  have hz := hpair f.z
  have hn := hpair f.n
  have hv := hpair f.v
  simp only [branchRows, List.countP_cons, List.countP_nil]
  omega

/-- Settles O39: the rule of a branch from the next instruction's address, and the four complementary pairs. -/
theorem conditionalBranches : Obligations.ConditionalBranches := by
  refine fun bb s => ⟨fun r hr => ?_, branchRows_countP_taken bb s.flags⟩
  obtain ⟨hencode, cond, hcond, hexec⟩ := branchRows_perform r hr
  obtain ⟨-, -, hcycles⟩ := branchRows_branch r hr
  have hnext : (s.pc + 2).toNat = (s.pc.toNat + 2) % 65536 := BitVec.toNat_add s.pc 2
  refine ⟨hencode, hcycles, _, hexec s, keeps_withPc (frame_branchIf cond bb _), fun htaken => ?_, fun hnot => ?_⟩
  · rw [branchIf_pc, State.withPc_flags, hcond, htaken, if_pos rfl, branchTarget_toNat, State.withPc_pc, hnext]
    omega
  · rw [branchIf_pc, State.withPc_flags, hcond, hnot, if_neg Bool.false_ne_true, State.withPc_pc, hnext]

/-! ### JMP -/

theorem loByte_toNat (w : Word) : (loByte w).toNat = w.toNat % 256 := by
  rw [← wordOf_hiByte_loByte w, wordOf_toNat, loByte_wordOf]
  omega

/-- Where the high byte of a pointer in one page is read (30_encoding.md R71), as a number. -/
theorem nextInPage_eq_ofNat (w : Word) :
    wordOf (hiByte w) (loByte w + 1) = BitVec.ofNat 16 (w.toNat / 256 * 256 + (w.toNat % 256 + 1) % 256) := by
  apply BitVec.eq_of_toNat_eq
  rw [wordOf_toNat, hiByte_toNat, byte_succ_toNat, loByte_toNat, BitVec.toNat_ofNat]
  omega

theorem loadInPage_withPc (s : State) (pc p : Word) :
    (s.withPc pc).loadInPage p = ((s.loadInPage p).1, (s.loadInPage p).2.withPc pc) := by
  simp only [State.loadInPage, load_withPc]

theorem jumpIndirect_pc (p : Word) (s : State) : (jumpIndirect p s).pc = (s.loadInPage p).1 := rfl

/-- Settles O40: the operand itself, or the word of a pointer in one page, whose reads do not depend on PC. -/
theorem jumpTargets : Obligations.JumpTargets := by
  refine fun w s => ⟨⟨rfl, rfl⟩, ⟨rfl, rfl⟩, ⟨_, rfl, keeps_withPc (frame_withPc _ w), rfl⟩,
    ⟨_, rfl, keeps_withPc (frame_jumpIndirect w _), ?_⟩⟩
  rw [jumpIndirect_pc, loadInPage_withPc, ← nextInPage_eq_ofNat]
  rfl

/-! ### JSR -/

/-- After its two pushes JSR changes PC, and at most the count of free values besides. -/
theorem jsr_onlyDraws (target : Word) (s : State) :
    OnlyDraws ((s.push16 (s.pc - 1)).withPc (jsr target s).pc) (jsr target s) := by
  simp only [jsr]
  split
  · exact ⟨rfl, Nat.le_add_right _ 1⟩
  · exact .refl _

/-- Where no push goes to the third byte, JSR jumps to its operand. -/
theorem jsr_pc (target : Word) {s : State} (h : jsrOverwrites s.sp (s.pc - 1) = false) : (jsr target s).pc = target := by
  rw [jsr, h]
  rfl

/-- The low byte of the target is fixed even where the high byte is free (log 11). -/
theorem loByte_jsr_pc (target : Word) (s : State) : loByte (jsr target s).pc = loByte target := by
  simp only [jsr]
  split
  · exact loByte_wordOf _ _
  · rfl

theorem jsrOverwrites_eq_false {sp : Byte} {ret : Word} (hhi : stackAddr sp ≠ ret) (hlo : stackAddr (sp - 1) ≠ ret) :
    jsrOverwrites sp ret = false := by
  rw [jsrOverwrites, decide_eq_false hhi, decide_eq_false hlo]
  rfl

/-- Settles O41: one less than the address past the instruction is pushed; the rest is JSR's choice of PC. -/
theorem jsrPushesAndJumps : Obligations.JsrPushesAndJumps := by
  refine fun w s => ⟨rfl, rfl, _, rfl, ?_⟩
  have hret : s.pc + 3 - 1 = s.pc + 2 := by bv_omega
  have hrest := jsr_onlyDraws w (s.withPc (s.pc + 3))
  rw [State.withPc_pc, hret] at hrest
  refine ⟨fun b => ?_, ?_, keeps_withPc (frame_jsr w _), fun hhi hlo => jsr_pc w ?_, loByte_jsr_pc w _⟩
  · rw [hrest.mem]
    exact push16_read (s.withPc (s.pc + 3)) (s.pc + 2) b
  · rw [hrest.sp]
    exact push16_sp (s.withPc (s.pc + 3)) (s.pc + 2)
  · rw [State.withPc_pc, State.withPc_sp, hret]
    exact jsrOverwrites_eq_false hhi hlo

/-! ### RTS -/

theorem pull16_withPc (s : State) (pc : Word) : (s.withPc pc).pull16.1 = s.pull16.1 := by
  simp only [pull16_value, load_withPc, State.withPc_sp]

/-- What RTS makes of the state: PC one past the word pulled, SP two more, nothing else. -/
theorem rts_completes (s : State) :
    Completes .rts s fun t => t.pc = s.pull16.1 + 1 ∧ t.sp = s.sp + 2 ∧ KeepsAllBut [.sp] s t :=
  ⟨rts (s.withPc (s.pc + 1)), rfl, congrArg (· + 1) (pull16_withPc s _), pull16_sp _, keeps_withPc (frame_rts _)⟩

/-- Settles O42: the word pulled is two reads, the low byte's address first. -/
theorem rtsPullsAndReturns : Obligations.RtsPullsAndReturns := by
  refine ⟨⟨rfl, rfl⟩, fun s => ?_⟩
  obtain ⟨t, hexec, hpc, hrest⟩ := rts_completes s
  exact ⟨t, hexec, hpc.trans (congrArg (· + 1) (pull16_value s)), hrest⟩

/-! ### A call and its return -/

theorem stackIsRam_of_platform {s t : State} (h : t.platform = s.platform) (hs : s.stackIsRam) : t.stackIsRam :=
  fun sp => (kindAt_of_platform h _).trans (hs sp)

theorem pushedWord_read_hi {s t : State} {w : Word} (h : PushedWord s t w) (hs : s.stackIsRam) :
    t.mem.read (stackAddr s.sp) = hiByte w := by
  rw [h, if_pos ⟨rfl, hs _⟩]

theorem pushedWord_read_lo {s t : State} {w : Word} (h : PushedWord s t w) (hs : s.stackIsRam) :
    t.mem.read (stackAddr (s.sp - 1)) = loByte w := by
  rw [h, if_neg fun e => stackAddr_pred_ne s.sp e.1, if_pos ⟨rfl, hs _⟩]

/-- On a stack of RAM the word pushed is the word pulled, from any state with the SP and the two bytes the pushes left. -/
theorem pull16_of_pushedWord {s u h : State} {w : Word} (hpushed : PushedWord s u w) (hs : s.stackIsRam)
    (hram : h.stackIsRam) (hsp : h.sp = s.sp - 2)
    (hbytes : ∀ k : Byte, k < 2 → h.mem.read (stackAddr (s.sp - k)) = u.mem.read (stackAddr (s.sp - k))) :
    h.pull16.1 = w := by
  have hhi : h.mem.read (stackAddr s.sp) = hiByte w := by
    have h0 := hbytes 0 (by decide)
    rw [show s.sp - 0 = s.sp from BitVec.sub_zero _] at h0
    exact h0.trans (pushedWord_read_hi hpushed hs)
  have hlo : h.mem.read (stackAddr (s.sp - 1)) = loByte w := (hbytes 1 (by decide)).trans (pushedWord_read_lo hpushed hs)
  have hsp2 : h.sp + 2 = s.sp := by bv_omega
  have hsp1 : h.sp + 1 = s.sp - 1 := by bv_omega
  rw [pull16_of_stackIsRam hram, hsp2, hsp1, hhi, hlo, wordOf_hiByte_loByte]

/-- Settles O43: RTS pulls the word JSR pushed, the address of JSR's third byte, and continues one past it. -/
theorem subroutineReturns : Obligations.SubroutineReturns := by
  intro w s u h hs hcall hmap hsp hbytes
  obtain ⟨-, -, u', hcall', hpushed, husp, ⟨-, humap, -⟩, -⟩ := jsrPushesAndJumps w s
  obtain rfl := Host.Outcome.next.inj (hcall.symm.trans hcall')
  have hram : h.stackIsRam := stackIsRam_of_platform (hmap.trans humap) hs
  obtain ⟨t, hexec, hpc, htsp, hkeeps⟩ := rts_completes h
  rw [pull16_of_pushedWord hpushed hs hram (hsp.trans husp) hbytes] at hpc
  refine ⟨t, hexec, ?_, ?_, hkeeps⟩ <;> bv_omega

end Sys2Proof.Proofs
end

section
/-! PROOFS. System and flag instructions (43_system_flags.md R160 to R169): BRK's entry, RTI's return, the seven flag
instructions and NOP. -/

namespace Sys2Proof.Proofs
open Sys2Proof Sys2Proof.Machine Sys2Proof.Claims

/-! ### The exception entry -/

/-- The bytes after the entry's three pushes: three different addresses, so no push covers another. -/
theorem pushEntry_read (s : State) (ret : Word) (brkBit : Bool) :
    PushedEntry s ((s.push16 ret).push8 (s.flags.toByte brkBit)) ret brkBit := by
  intro b
  have hkind : (s.push16 ret).kindAt b = s.kindAt b := by simp [State.push16]
  rw [push8_read, push16_sp, hkind, push16_read]
  by_cases hsr : b = stackAddr (s.sp - 2) ∧ s.kindAt b = .ram
  · have hslot : ∀ k : Byte, k < 2 → ¬(b = stackAddr (s.sp - k) ∧ s.kindAt b = .ram) := fun k hk h => by
      have hsp := stackAddr_inj.1 (hsr.1.symm.trans h.1)
      bv_omega
    have hhi := hslot 0 (by decide)
    rw [show s.sp - 0 = s.sp from BitVec.sub_zero _] at hhi
    rw [if_pos hsr, if_neg hhi, if_neg (hslot 1 (by decide)), if_pos hsr]
  · rw [if_neg hsr, if_neg hsr]

/-- What 60_exceptions.md R213 asks of every entry: its pushes, SP, I, the vector read after the pushes, its frame. -/
theorem enter_entered (s : State) (ret : Word) (brkBit : Bool) (vector : Word) :
    Entered s (s.enter ret brkBit vector) ret brkBit vector [] := by
  have hafter := enter_onlyDraws s ret brkBit vector
  refine ⟨fun b => ?_, ?_, ?_, enter_pc s ret brkBit vector, (frame_enter s ret brkBit vector).keeps⟩
  · rw [hafter.mem]
    exact pushEntry_read s ret brkBit b
  · rw [hafter.sp, State.withPc_sp, State.withFlags_sp, push8_sp, push16_sp]
    bv_omega
  · rw [hafter.flags]
    rfl

theorem store_withPc (s : State) (pc : Word) (a : Word) (v : Byte) :
    (s.withPc pc).store a v = (s.store a v).withPc pc := by
  rw [store_eq, store_eq, kindAt_of_platform (State.withPc_platform s pc)]
  rfl

theorem push8_withPc (s : State) (pc : Word) (v : Byte) : (s.withPc pc).push8 v = (s.push8 v).withPc pc :=
  congrArg (State.withSp · (s.sp - 1)) (store_withPc s pc _ v)

/-- The entry takes its return address as an argument and loads PC from the vector: where PC was does not count. -/
theorem enter_withPc (s : State) (pc ret : Word) (brkBit : Bool) (vector : Word) :
    (s.withPc pc).enter ret brkBit vector = s.enter ret brkBit vector := by
  have hflags : ∀ (t : State) (f : Flags), (t.withPc pc).withFlags f = (t.withFlags f).withPc pc := fun _ _ => rfl
  simp only [State.enter, State.push16, push8_withPc, hflags, State.loadWord, load_withPc, State.withPc_flags,
    State.withPc_withPc]

/-! ### BRK -/

/-- PC past the one-byte instruction and one more is the return address; the vector is IRQ's. -/
theorem exec_brk (s : State) : exec .brk s = .next (s.enter (s.pc + 2) true s.vectors.irq) := by
  have hret : s.pc + 1 + 1 = s.pc + 2 := by bv_omega
  have hexec : exec .brk s = .next ((s.withPc (s.pc + 1)).enter (s.pc + 1 + 1) true s.vectors.irq) := rfl
  rw [hexec, hret, enter_withPc]

/-- Settles O44: BRK is the shared entry sequence, in every state. -/
theorem brkEntry : Obligations.BrkEntry :=
  ⟨⟨rfl, rfl⟩, fun s => ⟨_, exec_brk s, enter_entered s _ _ _⟩⟩

/-! ### RTI -/

/-- The return as three pulls: the flags are those of the first byte, PC is the word of the next two. -/
theorem returnFromInterrupt_eq (s : State) :
    s.returnFromInterrupt =
      (s.pull8.2.pull16.2.withFlags (Flags.ofByte s.pull8.1)).withPc s.pull8.2.pull16.1 := by
  simp only [State.returnFromInterrupt, pull16_withFlags]

theorem pull8_withPc (s : State) (pc : Word) : (s.withPc pc).pull8 = (s.pull8.1, s.pull8.2.withPc pc) :=
  load_withPc (s.withSp (s.sp + 1)) pc _

theorem returnFromInterrupt_withPc (s : State) (pc : Word) :
    (s.withPc pc).returnFromInterrupt = s.returnFromInterrupt := by
  simp only [returnFromInterrupt_eq, State.pull16, pull8_withPc]
  rfl

theorem exec_rti (s : State) : exec .rti s = .next s.returnFromInterrupt :=
  congrArg Host.Outcome.next (returnFromInterrupt_withPc s (s.pc + 1))

theorem pull8_sp (s : State) : s.pull8.2.sp = s.sp + 1 := (pull8_onlyDraws s).sp

/-- The word pulled after a byte: the reads of its two bytes follow the read of that byte. -/
theorem pull8_pull16_value (s : State) :
    s.pull8.2.pull16.1 =
      let lo := (s.load (stackAddr (s.sp + 1))).2.load (stackAddr (s.sp + 2))
      wordOf (lo.2.load (stackAddr (s.sp + 3))).1 lo.1 := by
  have hlo : s.sp + 1 + 1 = s.sp + 2 := by bv_omega
  have hhi : s.sp + 1 + 2 = s.sp + 3 := by bv_omega
  rw [pull16_value, pull8_sp, hlo, hhi, pull8_eq]
  simp only [load_withSp]

theorem returnFromInterrupt_sp (s : State) : s.returnFromInterrupt.sp = s.sp + 3 := by
  rw [returnFromInterrupt_eq, State.withPc_sp, State.withFlags_sp, pull16_sp, pull8_sp]
  bv_omega

theorem returnFromInterrupt_flags (s : State) :
    s.returnFromInterrupt.flags = Flags.ofByte (s.load (stackAddr (s.sp + 1))).1 := by
  rw [returnFromInterrupt_eq, State.withPc_flags, State.withFlags_flags, pull8_eq]

theorem returnFromInterrupt_pc (s : State) : s.returnFromInterrupt.pc = s.pull8.2.pull16.1 := by
  rw [returnFromInterrupt_eq, State.withPc_pc]

/-- Settles O45: the flags of the byte pulled, then the word pulled; neither depends on PC. -/
theorem rtiRestores : Obligations.RtiRestores := by
  refine ⟨⟨rfl, rfl⟩, fun s => ⟨_, exec_rti s, ?_, ?_, returnFromInterrupt_sp s, (frame_returnFromInterrupt s).keeps⟩⟩
  · rw [returnFromInterrupt_flags]
    exact ⟨rfl, rfl, rfl, rfl, rfl, rfl⟩
  · exact (returnFromInterrupt_pc s).trans (pull8_pull16_value s)

/-! ### Flag instructions and NOP -/

/-- A one-byte instruction whose rule is a write of flags: the flags `f` gives, and PC one further. -/
theorem complete_setFlags (f : Flags → Flags) (s : State) :
    complete 1 (setFlags f) s = .next { s with flags := f s.flags, pc := s.pc + 1 } := rfl

/-- Settles O47: seven writes of one flag each; NOP's rule leaves the state. -/
theorem flagInstructionsAndNop : Obligations.FlagInstructionsAndNop :=
  ⟨⟨⟨rfl, rfl⟩, ⟨rfl, rfl⟩, ⟨rfl, rfl⟩, ⟨rfl, rfl⟩, ⟨rfl, rfl⟩, ⟨rfl, rfl⟩, ⟨rfl, rfl⟩, ⟨rfl, rfl⟩⟩, fun s =>
    ⟨complete_setFlags _ s, complete_setFlags _ s, complete_setFlags _ s, complete_setFlags _ s,
      complete_setFlags _ s, complete_setFlags _ s, complete_setFlags _ s, complete_eq 1 id s⟩⟩

end Sys2Proof.Proofs
end

section
/-! PROOFS. Loads and stores (44_load_store.md R180 to R185). -/

namespace Sys2Proof.Proofs
open Sys2Proof Sys2Proof.Machine Sys2Proof.Claims

/-! ### LDA, LDX, LDY -/

/-- Loads the operand value by `put`. `loadRows_perform` ties it to the three loads of the model. -/
def loadInto (put : State → Byte → State) (src : Source) (s : State) : State :=
  put (sourceValue src s).2 (sourceValue src s).1

theorem loadRows_perform (bb : Byte) (w : Word) :
    ∀ g ∈ [(State.putA, ldaRows bb w), (State.putX, ldxRows bb w), (State.putY, ldyRows bb w)], ∀ r ∈ g.2,
      RowPerforms (loadInto g.1) r := by
  intro g hg r hr
  fin_cases hg <;> fin_cases hr <;> exact ⟨⟨rfl, rfl, rfl, rfl⟩, fun _ => rfl⟩

/-- `put` makes a byte the value of the register `reg`, the piece `part`, with N and Z from it (10_state.md R28). -/
structure PutsRegister (part : Part) (reg : State → Byte) (put : State → Byte → State) : Prop where
  value : ∀ s v, reg (put s v) = v
  flags : ∀ s v, (put s v).flags = s.flags.setNZ v
  pc : ∀ s v, (put s v).pc = s.pc
  frame : ∀ s v, Frame [part, .n, .z] s (put s v)

theorem putA_putsRegister : PutsRegister .a State.a State.putA :=
  ⟨fun _ _ => rfl, fun _ _ => rfl, fun _ _ => rfl, frame_putA⟩

theorem putX_putsRegister : PutsRegister .x State.x State.putX :=
  ⟨fun _ _ => rfl, fun _ _ => rfl, fun _ _ => rfl, frame_putX⟩

theorem putY_putsRegister : PutsRegister .y State.y State.putY :=
  ⟨fun _ _ => rfl, fun _ _ => rfl, fun _ _ => rfl, frame_putY⟩

/-- The operand is read where PC does not count, and its value is all that the load takes from the read. -/
theorem loadInto_withPc (put : State → Byte → State) (src : Source) (s : State) (pc : Word) :
    loadInto put src (s.withPc pc) = put ((sourceValue src s).2.withPc pc) (operandM src s) := by
  rw [loadInto, sourceValue_withPc]

theorem frame_loadInto {part : Part} {reg : State → Byte} {put : State → Byte → State}
    (hput : PutsRegister part reg put) (src : Source) (s : State) : Frame [part, .n, .z] s (loadInto put src s) :=
  (hput.frame _ _).after_draws (sourceValue_onlyDraws src s)

/-- A line of a load's table (R180 to R182), whatever the register: the read before it moves the count of free values alone. -/
theorem loadRow_completes {part : Part} {reg : State → Byte} {put : State → Byte → State} {r : TableRow Source}
    (hput : PutsRegister part reg put) (hrow : RowPerforms (loadInto put) r) (s : State) :
    r.printed ∧ Completes r.instr s fun t =>
      reg t = operandM r.operand s ∧ ShowsNZ t (operandM r.operand s) ∧ KeepsAllBut [part, .n, .z] s t ∧
        PastIt r.bytes s t := by
  have hframe := keeps_withPc (frame_loadInto hput r.operand (s.withPc (s.pc + BitVec.ofNat 16 r.bytes)))
  refine ⟨hrow.printed, hrow.completes ?_⟩
  rw [loadInto_withPc] at hframe ⊢
  exact ⟨hput.value _ _, showsNZ_of_flags (hput.flags _ _), hframe, hput.pc _ _⟩

/-- Settles O48: the three loads differ in the register that the operand value is put in. -/
theorem loadResults : Obligations.LoadResults := fun bb w s =>
  ⟨fun r hr => loadRow_completes putA_putsRegister (loadRows_perform bb w (State.putA, ldaRows bb w) (by simp) r hr) s,
    fun r hr => loadRow_completes putX_putsRegister (loadRows_perform bb w (State.putX, ldxRows bb w) (by simp) r hr) s,
    fun r hr => loadRow_completes putY_putsRegister (loadRows_perform bb w (State.putY, ldyRows bb w) (by simp) r hr) s⟩

/-! ### STA, STX, STY -/

theorem storeRows_perform (bb : Byte) (w : Word) :
    ∀ g ∈ [(State.a, staRows bb w), (State.x, stxRows bb w), (State.y, styRows bb w)], ∀ r ∈ g.2,
      RowPerforms (storeAt · g.1) r := by
  intro g hg r hr
  fin_cases hg <;> fin_cases hr <;> exact ⟨⟨rfl, rfl, rfl, rfl⟩, fun _ => rfl⟩

/-- A store of a register, PC moved: address and value are those of the state before. -/
theorem storeAt_withPc {reg : State → Byte} (hreg : IsRegister reg) (m : Addr) (s : State) (pc : Word) :
    storeAt m reg (s.withPc pc) = (storeAt m reg s).withPc pc := by
  rw [storeAt_eq, addrEA_withPc, store_withPc, hreg s pc s (.refl s), storeAt_eq]

theorem storeAt_storedOnly (m : Addr) (v : State → Byte) (s : State) :
    StoredOnly s (storeAt m v s) (addrEA m s).1 (v s) := fun b => by
  rw [storeAt_mem, store_read]

/-- A line of a store's table (R183 to R185), whatever the register: one write, and no flag (R186). -/
theorem storeRow_completes {reg : State → Byte} {r : TableRow Addr} (hreg : IsRegister reg)
    (hrow : RowPerforms (storeAt · reg) r) (s : State) :
    r.printed ∧ Completes r.instr s fun t =>
      StoredOnly s t (addrEA r.operand s).1 (reg s) ∧ KeepsAllBut [.mem] s t ∧ PastIt r.bytes s t := by
  have hframe := keeps_withPc (frame_storeAt r.operand reg (s.withPc (s.pc + BitVec.ofNat 16 r.bytes)))
  refine ⟨hrow.printed, hrow.completes ?_⟩
  rw [storeAt_withPc hreg] at hframe ⊢
  exact ⟨storeAt_storedOnly _ _ _, hframe, rfl⟩

/-- Settles O49: the three stores differ in the register, which neither PC nor the mode's accesses move. -/
theorem storeResults : Obligations.StoreResults := by
  intro bb w s g hg r hr
  have hperform := storeRows_perform bb w
  fin_cases hg
  · exact storeRow_completes (fun _ _ _ h => h.a) (hperform (State.a, staRows bb w) (by simp) r hr) s
  · exact storeRow_completes (fun _ _ _ h => h.x) (hperform (State.x, stxRows bb w) (by simp) r hr) s
  · exact storeRow_completes (fun _ _ _ h => h.y) (hperform (State.y, styRows bb w) (by simp) r hr) s

end Sys2Proof.Proofs
end

section
/-! PROOFS. Stack and transfers (45_stack_transfer.md R190 to R199): one push or one pull, or one register copied. -/

namespace Sys2Proof.Proofs
open Sys2Proof Sys2Proof.Machine Sys2Proof.Claims

/-! ### PHA and PHP -/

/-- A one-byte instruction whose rule pushes a byte: one write at `$0100 + SP`, and no flag. -/
theorem completes_push8 {i : Instr} {s : State} {v : Byte} (h : exec i s = .next ((s.withPc (s.pc + 1)).push8 v)) :
    Completes i s fun t => StoredOnly s t (stackAddr s.sp) v ∧ t.sp = s.sp - 1 ∧ KeepsAllBut [.sp, .mem] s t ∧
      PastIt 1 s t :=
  ⟨_, h, fun b => store_read _ _ b v, rfl, keeps_withPc (frame_push8 _ v), store_pc _ _ v⟩

/-- Settles O51: the byte pushed is A, or SR with bit 4 set; moving PC changes neither. -/
theorem pushInstructions : Obligations.PushInstructions :=
  ⟨⟨⟨rfl, rfl⟩, ⟨rfl, rfl⟩⟩, fun _ => ⟨completes_push8 rfl, completes_push8 rfl⟩⟩

/-! ### PLA and PLP -/

/-- The byte a pull gives is the one read at `$0100 + SP + 1` (20_memory.md R53). -/
theorem pull8_value (s : State) : s.pull8.1 = (s.load (stackAddr (s.sp + 1))).1 := by rw [pull8_eq]

/-- PLA, PC past it: A is loaded with the byte pulled. -/
theorem exec_pla (s : State) : exec .pla s = .next ((s.pull8.2.withPc (s.pc + 1)).putA s.pull8.1) := by
  have hexec : exec .pla s = .next (pla (s.withPc (s.pc + 1))) := rfl
  rw [hexec, pla, pull8_withPc]

/-- PLP, PC past it: the flags are loaded from the byte pulled. -/
theorem exec_plp (s : State) :
    exec .plp s = .next ((s.pull8.2.withPc (s.pc + 1)).withFlags (Flags.ofByte s.pull8.1)) := by
  have hexec : exec .plp s = .next (plp (s.withPc (s.pc + 1))) := rfl
  rw [hexec, plp, pull8_withPc]

/-- What a pull leaves, PC moved: SP alone differs. -/
theorem frame_pull8_withPc (s : State) (pc : Word) : Frame [.sp] s (s.pull8.2.withPc pc) :=
  (frame_pull8 s).trans (frame_withPc _ pc)

theorem pla_completes (s : State) :
    Completes .pla s fun t => t.a = s.pull8.1 ∧ ShowsNZ t t.a ∧ t.sp = s.sp + 1 ∧
      KeepsAllBut [.a, .sp, .n, .z] s t ∧ PastIt 1 s t :=
  ⟨_, exec_pla s, rfl, showsNZ_of_flags rfl, pull8_sp s,
    ((frame_pull8_withPc s _).mono.trans (frame_putA _ _).mono).keeps, rfl⟩

theorem plp_completes (s : State) :
    Completes .plp s fun t => t.flags = Flags.ofByte s.pull8.1 ∧ t.sp = s.sp + 1 ∧
      KeepsAllBut [.sp, .n, .v, .d, .i, .z, .c] s t ∧ PastIt 1 s t :=
  ⟨_, exec_plp s, rfl, pull8_sp s, ((frame_pull8_withPc s _).mono.trans (frame_withFlags _ _)).keeps, rfl⟩

/-- Settles O52: the byte pulled is the byte read, and `Flags.ofByte` takes its bits 7, 6 and 3 to 0. -/
theorem pullInstructions : Obligations.PullInstructions := by
  refine ⟨⟨⟨rfl, rfl⟩, ⟨rfl, rfl⟩⟩, fun s => ?_⟩
  rw [← pull8_value]
  refine ⟨pla_completes s, ?_⟩
  obtain ⟨t, hexec, hflags, hrest⟩ := plp_completes s
  refine ⟨t, hexec, ?_, hrest⟩
  rw [hflags]
  exact ⟨rfl, rfl, rfl, rfl, rfl, rfl⟩

/-! ### A push and its pull -/

/-- On a stack of RAM the byte pushed is the byte pulled, from any state with the map, the SP and the memory the push left. -/
theorem pull8_of_storedOnly {s h : State} {v : Byte} (hs : s.stackIsRam) (hstored : StoredOnly s h (stackAddr s.sp) v)
    (hmap : h.platform = s.platform) (hsp : h.sp = s.sp - 1) : h.pull8.1 = v := by
  have hslot : h.sp + 1 = s.sp := by bv_omega
  have hplain : h.kindAt (stackAddr (h.sp + 1)) ≠ .external :=
    (stackIsRam_of_platform hmap hs _).trans_ne nofun
  rw [pull8_plain hplain, hslot, hstored, if_pos ⟨rfl, hs _⟩]

/-- Settles O53: A and the flags are no part of what a pull reads; SP is one less, then one more. -/
theorem pullAfterPush : Obligations.PullAfterPush := by
  intro s a f hs
  obtain ⟨hpha, hphp⟩ := pushInstructions.2 s
  constructor
  · obtain ⟨u, hpush, hstored, husp, ⟨-, hmap, -⟩, -⟩ := hpha
    obtain ⟨t, hpull, ha, -, htsp, -⟩ := pla_completes { u with a := a, flags := f }
    exact ⟨u, t, hpush, hpull, ha.trans (pull8_of_storedOnly hs hstored hmap husp), by bv_omega⟩
  · obtain ⟨u, hpush, hstored, husp, ⟨-, hmap, -⟩, -⟩ := hphp
    obtain ⟨t, hpull, hflags, htsp, -⟩ := plp_completes { u with a := a, flags := f }
    have hbyte := pull8_of_storedOnly (h := { u with a := a, flags := f }) hs hstored hmap husp
    rw [hbyte, ofByte_toByte] at hflags
    exact ⟨u, t, hpush, hpull, hflags, by bv_omega⟩

/-! ### Transfers -/

/-- A one-byte instruction whose rule puts a byte in a register, whichever register: N and Z show it. -/
theorem completes_put {part : Part} {reg : State → Byte} {put : State → Byte → State} (hput : PutsRegister part reg put)
    {i : Instr} {s : State} {v : Byte} (h : exec i s = .next (put (s.withPc (s.pc + 1)) v)) :
    Completes i s fun t => reg t = v ∧ ShowsNZ t v ∧ KeepsAllBut [part, .n, .z] s t ∧ PastIt 1 s t :=
  ⟨_, h, hput.value _ _, showsNZ_of_flags (hput.flags _ _), keeps_withPc (hput.frame _ _), hput.pc _ _⟩

/-- Settles O54: the five encodings, and the source's value put in the destination. -/
theorem transferResults : Obligations.TransferResults :=
  ⟨⟨⟨rfl, rfl⟩, ⟨rfl, rfl⟩, ⟨rfl, rfl⟩, ⟨rfl, rfl⟩, ⟨rfl, rfl⟩⟩, fun _ =>
    ⟨completes_put putX_putsRegister rfl, completes_put putY_putsRegister rfl, completes_put putX_putsRegister rfl,
      completes_put putA_putsRegister rfl, completes_put putA_putsRegister rfl⟩⟩

/-! ### TXS -/

theorem afterTxs_of_setsNZ (h : Config.txsFlags = .setsNZ) (f : Flags) (x : Byte) : f.afterTxs x = f.setNZ x := by
  rw [Flags.afterTxs, h]

theorem afterTxs_of_none (h : Config.txsFlags = .none) (f : Flags) (x : Byte) : f.afterTxs x = f := by
  rw [Flags.afterTxs, h]

/-- Settles O55: SP takes X's value, and the flags are what the open parameter `TXS_FLAGS` makes of them. -/
theorem txsResult : Obligations.TxsResult := by
  refine ⟨⟨rfl, rfl⟩, fun s => ?_⟩
  have hflags : (txs (s.withPc (s.pc + 1))).flags = s.flags.afterTxs s.x := rfl
  refine ⟨txs (s.withPc (s.pc + 1)), rfl, rfl, keeps_withPc (frame_txs _), rfl, fun h => ?_, fun h => ?_⟩
  · exact showsNZ_of_flags (hflags.trans (afterTxs_of_setsNZ h s.flags s.x))
  · rw [hflags, afterTxs_of_none h]
    exact ⟨rfl, rfl⟩

end Sys2Proof.Proofs
end

section
/-! PROOFS. Exceptions (60_exceptions.md R210 to R222): the one event taken at a boundary, the entries of IRQ and NMI, and the
return from each of the three entries. -/

namespace Sys2Proof.Proofs
open Sys2Proof Sys2Proof.Machine Sys2Proof.Claims

/-! ### Which event is taken -/

theorem event_eq_reset (s : State) {now : Inputs} (hres : now.res = true) : s.event now = .reset := if_pos hres

theorem event_eq_nmi {s : State} {now : Inputs} (hres : now.res = false) (hnmi : s.nmiPending = true) :
    s.event now = .nmi := by
  rw [State.event, hres, hnmi]
  rfl

/-- Where neither a reset nor an NMI is taken, the line and I decide between an IRQ and the instruction. -/
theorem event_of_no_reset_no_nmi {s : State} {now : Inputs} (hres : now.res = false) (hnmi : s.nmiPending = false) :
    s.event now = if now.irq && !s.flags.i then .irq else .instruction := by
  rw [State.event, hres, hnmi]
  rfl

theorem event_eq_irq {s : State} {now : Inputs} (hres : now.res = false) (hnmi : s.nmiPending = false)
    (hirq : now.irq = true) (hi : s.flags.i = false) : s.event now = .irq := by
  rw [event_of_no_reset_no_nmi hres hnmi, hirq, hi]
  rfl

theorem event_eq_instruction {s : State} {now : Inputs} (hres : now.res = false) (hnmi : s.nmiPending = false)
    (hheld : now.irq = false ∨ s.flags.i = true) : s.event now = .instruction := by
  rw [event_of_no_reset_no_nmi hres hnmi]
  rcases hheld with hirq | hi
  · rw [hirq]
    rfl
  · rw [hi, Bool.not_true, Bool.and_false]
    rfl

/-- Settles O8: one lemma for each of the four events. -/
theorem oneEventInOrder : Obligations.OneEventInOrder := fun s _ =>
  ⟨event_eq_reset s, event_eq_nmi, event_eq_irq, event_eq_instruction⟩

/-- Settles O56: every instruction performs a rule, and a rule answers a state. -/
theorem noInstructionFaults : Obligations.NoInstructionFaults := fun i s =>
  have ⟨_, _, hexec⟩ := exec_performs i
  ⟨_, hexec s⟩

/-! ### The step that takes an event -/

theorem step_of_irq {s : State} (he : (atBoundary s).event (nowInputs s) = .irq) :
    step s = .next (atBoundary s).takeIrq := by
  unfold atBoundary nowInputs at *
  simp only [step, he]

theorem step_of_nmi {s : State} (he : (atBoundary s).event (nowInputs s) = .nmi) :
    step s = .next (atBoundary s).takeNmi := by
  unfold atBoundary nowInputs at *
  simp only [step, he]

/-- A step that takes an event and no instruction has 7 cycles (70_reset_and_hazards.md R248). -/
theorem stepCycles_of_event {s : State} (he : (atBoundary s).event (nowInputs s) ≠ .instruction) :
    stepCycles s = some 7 := by
  unfold atBoundary nowInputs at he
  cases hevent : s.sample.2.event s.sample.1 with
  | reset | nmi | irq => simp only [stepCycles, hevent]
  | instruction => exact absurd hevent he

/-! ### The entries of IRQ and NMI -/

theorem takeIrq_entered (s : State) : Entered s s.takeIrq s.pc false s.vectors.irq [] :=
  enter_entered s s.pc false s.vectors.irq

theorem frame_withNmiPending (s : State) (v : Bool) : Frame [.nmi] s (s.withNmiPending v) :=
  ⟨⟨fun p hp => by cases p <;> simp [Part.same] at hp ⊢, rfl, rfl, rfl⟩, fun _ => rfl⟩

theorem takeNmi_eq (s : State) : s.takeNmi = (s.withNmiPending false).enter s.pc false s.vectors.nmi := rfl

theorem frame_takeNmi (s : State) : Frame [.sp, .i, .mem, .nmi] s s.takeNmi :=
  (frame_withNmiPending s false).mono.trans (frame_enter (s.withNmiPending false) s.pc false s.vectors.nmi).mono

/-- The latch is no part of what the entry pushes or reads. -/
theorem takeNmi_entered (s : State) : Entered s s.takeNmi s.pc false s.vectors.nmi [.nmi] := by
  obtain ⟨hpushed, hsp, hi, hpc, -⟩ := enter_entered (s.withNmiPending false) s.pc false s.vectors.nmi
  rw [← takeNmi_eq] at hpushed hsp hi hpc
  have hread := loadWord_congr (s := s.withMem s.takeNmi.mem)
    (t := (s.withNmiPending false).withMem s.takeNmi.mem) rfl rfl rfl s.vectors.nmi
  exact ⟨hpushed, hsp, hi, hpc.trans hread, (frame_takeNmi s).keeps⟩

/-- The entry leaves the latch as it finds it: cleared (60_exceptions.md R216). -/
theorem takeNmi_nmiPending (s : State) : s.takeNmi.nmiPending = false := by
  obtain ⟨hparts, -⟩ := (frame_enter (s.withNmiPending false) s.pc false s.vectors.nmi).keeps
  exact hparts .nmi (by simp)

/-- Settles O9: at the boundary PC and the vectors' addresses are those of before, and I = 1 holds the IRQ off. -/
theorem irqEntry : Obligations.IrqEntry := by
  intro s hres hnmi hirq
  refine ⟨fun hi => ?_, fun hi => event_eq_instruction hres hnmi (.inr hi)⟩
  have hevent := event_eq_irq hres hnmi hirq hi
  obtain ⟨-, hvectors, -⟩ := atBoundary_platform s
  have hentered := takeIrq_entered (atBoundary s)
  rw [atBoundary_pc, hvectors] at hentered
  exact ⟨stepCycles_of_event (hevent.trans_ne nofun), _, step_of_irq hevent, hentered⟩

/-- A record of inputs is used up at the boundary, and its edge merges with an NMI that is pending already. -/
theorem atBoundary_cons {s : State} {now : Inputs} {rest : List Inputs} (h : s.inputs = now :: rest) :
    nowInputs s = now ∧ (atBoundary s).inputs = rest ∧ (atBoundary s).nmiPending = (s.nmiPending || now.nmiEdge) := by
  unfold nowInputs atBoundary
  rw [sample_cons h]
  exact ⟨rfl, rfl, rfl⟩

/-- Settles O10: the latch at the boundary, then the entry with the latch cleared before it. -/
theorem nmiLatchAndEntry : Obligations.NmiLatchAndEntry := by
  refine ⟨fun s now rest h => atBoundary_cons h, fun s hres hnmi => ?_⟩
  have hevent := event_eq_nmi hres hnmi
  obtain ⟨-, hvectors, -⟩ := atBoundary_platform s
  have hentered := takeNmi_entered (atBoundary s)
  rw [atBoundary_pc, hvectors] at hentered
  exact ⟨stepCycles_of_event (hevent.trans_ne nofun), _, step_of_nmi hevent, hentered, takeNmi_nmiPending _⟩

/-! ### The return from an entry -/

/-- On a stack of RAM, the three bytes an entry left. -/
theorem pushedEntry_stack {s t : State} {ret : Word} {brkBit : Bool} (h : PushedEntry s t ret brkBit)
    (hs : s.stackIsRam) :
    t.mem.read (stackAddr s.sp) = hiByte ret ∧ t.mem.read (stackAddr (s.sp - 1)) = loByte ret ∧
      t.mem.read (stackAddr (s.sp - 2)) = s.flags.toByte brkBit := by
  have hlo : stackAddr (s.sp - 1) ≠ stackAddr s.sp := stackAddr_pred_ne s.sp
  have hsr_hi : stackAddr (s.sp - 2) ≠ stackAddr s.sp := fun e => by
    have := stackAddr_inj.1 e
    bv_omega
  have hsr_lo : stackAddr (s.sp - 2) ≠ stackAddr (s.sp - 1) := fun e => by
    have := stackAddr_inj.1 e
    bv_omega
  refine ⟨?_, ?_, ?_⟩
  · rw [h, if_pos ⟨rfl, hs _⟩]
  · rw [h, if_neg fun e => hlo e.1, if_pos ⟨rfl, hs _⟩]
  · rw [h, if_neg fun e => hsr_hi e.1, if_neg fun e => hsr_lo e.1, if_pos ⟨rfl, hs _⟩]

/-- On a stack of RAM a return reads SR from the next byte and PC from the two after it. -/
theorem returnFromInterrupt_of_stackIsRam {s : State} (h : s.stackIsRam) :
    s.returnFromInterrupt.flags = Flags.ofByte (s.mem.read (stackAddr (s.sp + 1))) ∧
      s.returnFromInterrupt.pc =
        wordOf (s.mem.read (stackAddr (s.sp + 3))) (s.mem.read (stackAddr (s.sp + 2))) := by
  have hload : ∀ sp, s.load (stackAddr sp) = (s.mem.read (stackAddr sp), s) := fun sp => load_plain (by simp [h sp])
  constructor
  · rw [returnFromInterrupt_flags, hload]
  · rw [returnFromInterrupt_pc, pull8_pull16_value]
    simp only [hload]

/-- The return undoes an entry, whichever vector it went through and whatever bit 4 it pushed: the pushed flags are those before
I was set, and the pushed word is the return address with no adjustment (43_system_flags.md R166). -/
theorem returnFromInterrupt_of_entered {s u h : State} {ret vector : Word} {brkBit : Bool} {also : List Part}
    (hentered : Entered s u ret brkBit vector also) (hs : s.stackIsRam) (hmap : h.platform = u.platform) (hsp : h.sp = u.sp)
    (hbytes : ∀ k : Byte, k < 3 → h.mem.read (stackAddr (s.sp - k)) = u.mem.read (stackAddr (s.sp - k))) :
    h.returnFromInterrupt.pc = ret ∧ h.returnFromInterrupt.flags = s.flags ∧ h.returnFromInterrupt.sp = s.sp := by
  obtain ⟨hpushed, husp, -, -, -, humap, -⟩ := hentered
  obtain ⟨hhi, hlo, hsr⟩ := pushedEntry_stack hpushed hs
  have hsp1 : h.sp + 1 = s.sp - 2 := by bv_omega
  have hsp2 : h.sp + 2 = s.sp - 1 := by bv_omega
  have hsp3 : h.sp + 3 = s.sp - 0 := by bv_omega
  have hzero : s.sp - 0 = s.sp := BitVec.sub_zero _
  obtain ⟨hflags, hpc⟩ := returnFromInterrupt_of_stackIsRam (stackIsRam_of_platform (hmap.trans humap) hs)
  rw [hsp1, hbytes 2 (by decide), hsr, ofByte_toByte] at hflags
  rw [hsp3, hsp2, hbytes 0 (by decide), hbytes 1 (by decide), hzero, hhi, hlo, wordOf_hiByte_loByte] at hpc
  exact ⟨hpc, hflags, (returnFromInterrupt_sp h).trans (hsp3.trans hzero)⟩

/-- Settles O46: BRK, IRQ and NMI enter by the one sequence, and RTI returns from it. -/
theorem handlerReturns : Obligations.HandlerReturns := by
  intro s u h ret hs hentry hmap hsp hbytes
  obtain ⟨_, _, _, hentered⟩ : ∃ brkBit vector also, Entered s u ret brkBit vector also := by
    rcases hentry with ⟨hbrk, rfl⟩ | ⟨rfl, rfl⟩ | ⟨rfl, rfl⟩
    · obtain rfl := Host.Outcome.next.inj ((exec_brk s).symm.trans hbrk)
      exact ⟨_, _, _, enter_entered s _ _ _⟩
    · exact ⟨_, _, _, takeIrq_entered s⟩
    · exact ⟨_, _, _, takeNmi_entered s⟩
  obtain ⟨hpc, hflags, htsp⟩ := returnFromInterrupt_of_entered hentered hs hmap hsp hbytes
  exact ⟨_, exec_rti h, hpc, hflags, htsp, (frame_returnFromInterrupt h).keeps⟩

end Sys2Proof.Proofs
end

section
/-! PROOFS. The reset sequence (70_reset_and_hazards.md R240) and the jump that ends a run (R249). -/

namespace Sys2Proof.Proofs
open Sys2Proof Sys2Proof.Machine Sys2Proof.Claims

/-! ### Reset -/

theorem step_of_reset {s : State} (he : (atBoundary s).event (nowInputs s) = .reset) :
    step s = .next (atBoundary s).takeReset := by
  unfold atBoundary nowInputs at *
  simp only [step, he]

/-- I is the one flag that is not free. -/
theorem takeReset_flags_i (s : State) : s.takeReset.flags.i = true := rfl

/-- The free values taken after the read of the vector leave the latch as it was cleared before it. -/
theorem takeReset_nmiPending (s : State) : s.takeReset.nmiPending = false := by
  have hread := loadWord_onlyDraws ((s.withFlags { s.flags with i := true }).withNmiPending false) s.vectors.res
  simp [State.takeReset, State.draw8, State.draw1, hread.nmiPending]

/-- I and the latch are no part of what the read of the vector depends on. -/
theorem takeReset_pc (s : State) : s.takeReset.pc = (s.loadWord s.vectors.res).1 :=
  loadWord_congr (s := s) (t := (s.withFlags { s.flags with i := true }).withNmiPending false) rfl rfl rfl s.vectors.res

/-- Of the pieces of state, memory is the one that a reset leaves. -/
theorem keeps_takeReset (s : State) : KeepsAllBut [.a, .x, .y, .sp, .n, .v, .d, .i, .z, .c, .nmi] s s.takeReset := by
  refine ⟨fun p hp => ?_, takeReset_platform s⟩
  cases p with
  | mem => exact fun b => congrArg (Memory.read · b) (takeReset_mem s)
  | _ => simp at hp

/-- Settles O11: the reset comes before the other events, and the vectors' addresses at the boundary are those of before. -/
theorem resetSequence : Obligations.ResetSequence := by
  intro s hres
  have hevent := event_eq_reset (atBoundary s) hres
  obtain ⟨-, hvectors, -⟩ := atBoundary_platform s
  have hpc := takeReset_pc (atBoundary s)
  rw [hvectors] at hpc
  exact ⟨stepCycles_of_event (hevent.trans_ne nofun), _, step_of_reset hevent, takeReset_flags_i _,
    takeReset_nmiPending _, hpc, keeps_takeReset _⟩

/-! ### The end of a run -/

/-- Convention (b) of R249: the instruction fetched is a JMP to the address it stands at. -/
theorem jumpToSelf_reached_iff (s : State) :
    EndOfRun.jumpToSelf.reached s = true ↔ s.fetch.1 = .ok (.jmpAbs s.pc) := by
  simp only [EndOfRun.reached]
  split
  · next t hfetch => simp [hfetch]
  · next hother => exact ⟨nofun, fun h => absurd h (hother _)⟩

/-- The fetch reads at most three bytes, and a read of plain memory takes no free value. -/
theorem fetch_state_of_plainAt {s : State} (h0 : s.plainAt s.pc = true) (h1 : s.plainAt (s.pc + 1) = true)
    (h2 : s.plainAt (s.pc + 2) = true) : s.fetch.2 = s := by
  simp only [State.fetch, load_of_plainAt h0, load_of_plainAt h1, load_of_plainAt h2]
  split <;> rfl

/-- PC moves past the JMP and back to it. -/
theorem exec_jmpAbs_self (s : State) : exec (.jmpAbs s.pc) s = .next s := rfl

/-- With no record of inputs left, the boundary asserts nothing and changes nothing. -/
theorem boundary_of_no_inputs {s : State} (h : s.inputs = []) : nowInputs s = Inputs.idle ∧ atBoundary s = s := by
  unfold nowInputs atBoundary
  rw [sample_nil h]
  exact ⟨rfl, rfl⟩

/-- Settles O16: the boundary changes nothing, nor does the fetch, nor the JMP. -/
theorem jumpToSelfIsFixedPoint : Obligations.JumpToSelfIsFixedPoint := by
  intro s hinputs hnmi h0 hreached h1 h2
  obtain ⟨hnow, hboundary⟩ := boundary_of_no_inputs hinputs
  have hevent : (atBoundary s).event (nowInputs s) = .instruction := by
    rw [hboundary, hnow]
    exact event_eq_instruction rfl hnmi (.inl rfl)
  have hfetch : (atBoundary s).fetch = (.ok (.jmpAbs s.pc), s) := by
    rw [hboundary]
    exact Prod.ext ((jumpToSelf_reached_iff s).1 hreached) (fetch_state_of_plainAt h0 h1 h2)
  exact (step_of_fetch hevent hfetch).trans (exec_jmpAbs_self s)

end Sys2Proof.Proofs
end
